-- ==== Sys2Proof/Word.lean ====
section
/-! DEFINITION. The words of the hardware: 32-bit words (R34), bytes of a serialised word (R34) and
binary32 values (R5), the last as a type of their own so that no integer operation reaches them. -/

namespace Sys2Proof

/-- One 32-bit word of an interface (R34). -/
abbrev Word := BitVec 32

/-- One byte of a serialised word (R34). -/
abbrev Byte := BitVec 8

/-- An IEEE 754 binary32 value, held as its bit pattern (R5: bit 31 the sign, bits 30:23 the biased
exponent, bits 22:0 the fraction). `F32.mk` is `as_f32`, `F32.bits` is `bits`. -/
structure F32 where
  bits : Word
  deriving DecidableEq, Repr, Inhabited

/-- One host command (R43): the command word `CMD` and the argument word `ARG`, always transferred
together. -/
structure Command where
  cmd : Word
  arg : Word
  deriving DecidableEq, Repr

end Sys2Proof
end

