-- ==== Sys2Proof/Config.lean ====
section
/-! DEFINITION. The implementation parameters of R4 as a configuration value: every definition of the model that
depends on one takes it from there. The value this hardware takes, `Config.reference`, stands in
Machine/Reference.lean (log entry 9). And the free values of the model: opaque constants that nothing can
evaluate (log entries 4, 6 and 11). -/

namespace Sys2Proof

/-- The four binary32 operators of R7. -/
inductive FloatOp where
  | add | sub | mul | div
  deriving DecidableEq, Repr

/-- The three configuration functions of R4. -/
inductive ElementaryFn where
  | cos | sin | exp2
  deriving DecidableEq, Repr

/-- `FILTER_REALIZATION` (R4): how the filter's coefficients are found. -/
inductive Realization where
  | direct | table
  deriving DecidableEq, Repr

/-- `BYTE_ORDER` (R4): the order of the bytes of a serialised word. -/
inductive ByteOrder where
  | littleEndian | bigEndian
  deriving DecidableEq, Repr

/-- A configuration (R4): one value for each implementation parameter. -/
structure Config where
  /-- Audio sample rate in Hz. -/
  SR : Nat
  /-- Largest sequencer length. -/
  N_MAX : Nat
  /-- Width of the clock phase. -/
  PHASE_BITS : Nat
  /-- The clock multipliers as (numerator, denominator) (R18). -/
  MULT_TABLE : List (Nat × Nat)
  /-- Index of 1/1 in `MULT_TABLE`. -/
  MULT_UNITY : Nat
  /-- The scale degrees, one row of 12 slots per scale, padded with degree 0 (R17). -/
  SCALE_TABLE : List (List Nat)
  /-- Number of rows of `SCALE_TABLE`. -/
  NUM_SCALES : Nat
  /-- Reference note for NOTE_TO_HZ (R85). -/
  ROOT_NOTE : Int
  /-- The frequency of the reference note in Hz. -/
  ROOT_HZ : F32
  /-- Least legal note number on host inputs. -/
  NOTE_MIN : Int
  /-- Greatest legal note number on host inputs. -/
  NOTE_MAX : Int
  /-- The note SEQ_INIT stores, before quantization (R68). -/
  DEFAULT_NOTE : Int
  /-- Least transpose offset. -/
  TRANSPOSE_MIN : Int
  /-- Greatest transpose offset. -/
  TRANSPOSE_MAX : Int
  /-- The coefficient realization. -/
  FILTER_REALIZATION : Realization
  /-- Filter table grid: frequency points (R21). -/
  NF : Nat
  /-- Filter table grid: Q points (R21). -/
  NQ : Nat
  /-- Envelope decay end threshold. -/
  ENV_EPS : F32
  /-- Binary32 approximation of cos, in radians: a total function of its operand alone (R7). -/
  COS : F32 → F32
  /-- Binary32 approximation of sin, in radians (R7). -/
  SIN : F32 → F32
  /-- Binary32 approximation of 2^x (R7). -/
  EXP2 : F32 → F32
  /-- Samples per audio block; no rule depends on it (R29). -/
  BLOCK_SIZE : Nat
  /-- Byte order of a serialised word (R34). -/
  BYTE_ORDER : ByteOrder

namespace Config

/-- The period units that stand for one full turn: `PERIOD = 2^PHASE_BITS` (R4, R12). -/
abbrev PERIOD (p : Config) : Nat := 2 ^ p.PHASE_BITS

/-- FREE VALUE (log entry 11): the reference value of BLOCK_SIZE, which R4 leaves OPEN. -/
opaque openBlockSize : Nat

/-- FREE VALUE (log entry 4): the sign (bit 22) and payload (bits 21:0) of the quiet NaN that an invalid
operation, or an operation on a NaN, yields; R7 leaves them open. -/
opaque nanBits : FloatOp → F32 → F32 → BitVec 23

/-- FREE VALUE (log entry 6): COS, SIN and EXP2 of a NaN or an infinity; R7 gives the reference instance
by the exact real function, which has no value there. -/
opaque nonFiniteElementary : ElementaryFn → F32 → F32

end Config
end Sys2Proof
end

