-- ==== Sys2Proof/Machine/Operands.lean ====
section
/-! DEFINITION. Operand assembly and response patterns (R46): how the 32 bits of `ARG` are read and how a
value is written into `RDATA`; and the bytes of a serialised word (R34). -/

namespace Sys2Proof.Machine

/-- `as_i32` (R5, R46). -/
def asI32 (w : Word) : Int := w.toInt

/-- `as_u32` (R5, R46). -/
def asU32 (w : Word) : Nat := w.toNat

/-- `as_f32` (R5, R46): the bits, with no conversion. -/
def asF32 (w : Word) : F32 := ⟨w⟩

/-- The two's-complement 32-bit pattern of an integer (R46). -/
def patternOfInt (n : Int) : Word := BitVec.ofInt 32 n

/-- `zext_32` of an unsigned register (R46). -/
def zext32 {w : Nat} (v : BitVec w) : Word := BitVec.ofNat 32 v.toNat

/-- `zext_32` of a boolean register (R46). -/
def zextBool (b : Bool) : Word := if b then 1 else 0

/-- `clamp(v, lo, hi)` on integers (R6). -/
def clampInt (v lo hi : Int) : Int := if v < lo then lo else if hi < v then hi else v

/-- The four bytes of a serialised word, byte 0 first: bits 7:0 first when little-endian (R34). -/
def bytesOfWord (order : ByteOrder) (w : Word) : List Byte :=
  let little := [w.extractLsb' 0 8, w.extractLsb' 8 8, w.extractLsb' 16 8, w.extractLsb' 24 8]
  match order with
  | .littleEndian => little
  | .bigEndian => little.reverse

/-- The word whose serialisation is the four bytes `b0`, `b1`, `b2`, `b3` (R34). -/
def wordOfBytes (order : ByteOrder) (b0 b1 b2 b3 : Byte) : Word :=
  match order with
  | .littleEndian => b3 ++ b2 ++ b1 ++ b0
  | .bigEndian => b0 ++ b1 ++ b2 ++ b3

/-- The serialised command: `CMD`, then `ARG` (R43, R34; log entry 12). -/
def bytesOfCommand (order : ByteOrder) (c : Command) : List Byte :=
  bytesOfWord order c.cmd ++ bytesOfWord order c.arg

/-- The command that eight serialised bytes carry; no other number of bytes is a command (R43). -/
def commandOfBytes (order : ByteOrder) (bs : List Byte) : Option Command :=
  match bs with
  | [c0, c1, c2, c3, a0, a1, a2, a3] =>
    some ⟨wordOfBytes order c0 c1 c2 c3, wordOfBytes order a0 a1 a2 a3⟩
  | _ => none

/-- The command whose bits are `w`, the least significant bit of `CMD` first and `ARG` above it, of which
the low `nbits` are given and every other bit is 0. -/
def commandOfBits (nbits w : Nat) : Command :=
  let bits := w % 2 ^ nbits
  ⟨BitVec.ofNat 32 bits, BitVec.ofNat 32 (bits / 2 ^ 32)⟩

end Sys2Proof.Machine
end

