-- ==== Sys2Proof/Machine/Float.lean ====
section
/-! DEFINITION. Binary32 arithmetic (R7): every finite value is a whole number of units of 2^-149, so an
operation is exact arithmetic on those units followed by ONE rounding, `F32.roundMag`. -/

namespace Sys2Proof

/-- `round_ne` of the rational `n / d` (R6): nearest integer, ties to the even one. -/
def roundNE (n d : Nat) : Nat :=
  let q := n / d
  let r := n % d
  if 2 * r < d then q else if d < 2 * r then q + 1 else if q % 2 = 0 then q else q + 1

/-- The bits of +inf, as a number (R5). -/
abbrev F32.infMag : Nat := 0x7F800000

/-- The sign bit (R5). -/
def F32.sign (a : F32) : Bool := a.bits.msb

/-- Bits 30:0: the magnitude's pattern (R5). -/
def F32.low (a : F32) : Nat := a.bits.toNat % 2 ^ 31

/-- NaN: exponent all ones and a nonzero fraction (R5). -/
def F32.isNaN (a : F32) : Bool := decide (F32.infMag < a.low)

/-- An infinity (R5). -/
def F32.isInf (a : F32) : Bool := decide (a.low = F32.infMag)

/-- Neither a NaN nor an infinity. -/
def F32.isFinite (a : F32) : Bool := decide (a.low < F32.infMag)

/-- The value of a magnitude pattern in units of 2^-149: a subnormal is its fraction; a normal value has the
implicit leading one, scaled by its exponent (R5). -/
def F32.unitsOf (m : Nat) : Nat :=
  if m / 2 ^ 23 = 0 then m else (2 ^ 23 + m % 2 ^ 23) * 2 ^ (m / 2 ^ 23 - 1)

/-- The magnitude of a finite value in units of 2^-149. -/
def F32.mag (a : F32) : Nat := F32.unitsOf a.low

/-- A finite value in units of 2^-149. -/
def F32.units (a : F32) : Int := if a.sign then -(a.mag : Int) else a.mag

/-- The pattern of the binary32 magnitude nearest to `n / d` units of 2^-149, ties to even, with gradual
underflow and overflow to infinity (R7). The unit in the last place is 2^k units; a carry out of the
fraction runs into the exponent by itself. -/
def F32.roundMag (n d : Nat) : Nat :=
  let k := Nat.log2 (n / d) - 23
  min (k * 2 ^ 23 + roundNE n (d * 2 ^ k)) F32.infMag

/-- The value with the given sign and magnitude pattern. -/
def F32.pack (negative : Bool) (m : Nat) : F32 :=
  ⟨BitVec.ofNat 32 (if negative then 2 ^ 31 + m else m)⟩

/-- `to_f32` of the rational `z / d` (R7), correctly rounded. -/
def F32.ofRat (z : Int) (d : Nat) : F32 :=
  F32.pack (decide (z < 0)) (F32.roundMag (z.natAbs * 2 ^ 149) d)

/-- `to_f32` of an integer; for a bare literal of the pseudocode, its exact value (R7). -/
def F32.ofInt (z : Int) : F32 := F32.ofRat z 1

/-- The quiet NaN an operation yields, its sign and payload free (log entry 4). -/
def F32.nan (op : FloatOp) (a b : F32) : F32 :=
  let v := Config.nanBits op a b
  ⟨v.extractLsb' 22 1 ++ 0x1FF#9 ++ v.extractLsb' 0 22⟩

/-- `-f a`: the sign bit flipped (R7). -/
def F32.neg (a : F32) : F32 := ⟨a.bits ^^^ 0x80000000⟩

/-- `fabs(a)`: the sign bit cleared (R7). -/
def F32.abs (a : F32) : F32 := ⟨a.bits &&& 0x7FFFFFFF⟩

/-- The sum of two values that are not NaNs; `op` is the operator asked for, which names a NaN result. An
exact zero sum is +0, but for the sum of two negative zeros. -/
def F32.addNonNaN (op : FloatOp) (a b : F32) : F32 :=
  if a.isInf then (if b.isInf && (a.sign != b.sign) then F32.nan op a b else a)
  else if b.isInf then b
  else
    let z := a.units + b.units
    if z = 0 then F32.pack (a.sign && b.sign) 0
    else F32.pack (decide (z < 0)) (F32.roundMag z.natAbs 1)

/-- `a +f b` (R7). -/
def F32.add (a b : F32) : F32 :=
  if a.isNaN || b.isNaN then F32.nan .add a b else F32.addNonNaN .add a b

/-- `a -f b` (R7): the sum with the second operand's sign flipped. -/
def F32.sub (a b : F32) : F32 :=
  if a.isNaN || b.isNaN then F32.nan .sub a b else F32.addNonNaN .sub a b.neg

/-- `a *f b` (R7). -/
def F32.mul (a b : F32) : F32 :=
  let negative := a.sign != b.sign
  if a.isNaN || b.isNaN then F32.nan .mul a b
  else if a.isInf || b.isInf then
    (if a.low = 0 ∨ b.low = 0 then F32.nan .mul a b else F32.pack negative F32.infMag)
  else F32.pack negative (F32.roundMag (a.mag * b.mag) (2 ^ 149))

/-- `a /f b` (R7). -/
def F32.div (a b : F32) : F32 :=
  let negative := a.sign != b.sign
  if a.isNaN || b.isNaN then F32.nan .div a b
  else if a.isInf then (if b.isInf then F32.nan .div a b else F32.pack negative F32.infMag)
  else if b.isInf then F32.pack negative 0
  else if b.low = 0 then (if a.low = 0 then F32.nan .div a b else F32.pack negative F32.infMag)
  else F32.pack negative (F32.roundMag (a.mag * 2 ^ 149) b.mag)

/-- The order of the values that are not NaNs, as integers: patterns are ordered like magnitudes, and the
two zeros are equal (R7). -/
def F32.key (a : F32) : Int := if a.sign then -(a.low : Int) else a.low

/-- `a < b` (R7): an IEEE comparison, false when an operand is a NaN. -/
def F32.lt (a b : F32) : Bool := !a.isNaN && !b.isNaN && decide (a.key < b.key)

/-- `a <= b` (R7). -/
def F32.le (a b : F32) : Bool := !a.isNaN && !b.isNaN && decide (a.key ≤ b.key)

/-- `a == b` on values (R7): `-0.0 == +0.0`, and a NaN equals nothing. -/
def F32.eqv (a b : F32) : Bool := !a.isNaN && !b.isNaN && decide (a.key = b.key)

/-- `clamp(v, lo, hi)` by IEEE comparisons (R6). -/
def F32.clamp (v lo hi : F32) : F32 := if v.lt lo then lo else if hi.lt v then hi else v

end Sys2Proof
end

