-- ==== Sys2Proof/Machine/Elementary.lean ====
section
/-! DEFINITION. The reference instance of the configuration functions COS, SIN and EXP2 (R4, R7): the exact
function computed in fixed point with 512 fraction bits and rounded once to binary32 (log entry 5), and the
exactly rounded roots that the filter grids are made of (R110). The three functions are irreducible, for only the
kernel should compute them. -/

namespace Sys2Proof

/-- One, in fixed point with 512 fraction bits. -/
abbrev fixOne : Nat := 2 ^ 512

/-- The floor of π/2 in fixed point (log entry 5). -/
def halfPiFix : Nat :=
  0x1921fb54442d18469898cc51701b839a252049c1114cf98e804177d4c76273644a29410f31c6809bbdf2a33679a748636605614dbe4be286e9fc26adadaa3848b

/-- The floor of the natural logarithm of 2 in fixed point (log entry 5). -/
def ln2Fix : Nat :=
  0xb17217f7d1cf79abc9e3b39803f2f6af40f343267298b62d8a0d175b8baafa2be7b876206debac98559552fb4afa1b10ed2eae35c138214427573b291169b825

/-- The number of terms taken of each power series; the next one is below the last fraction bit. -/
abbrev seriesTerms : Nat := 60

/-- `1 - z/(a(a+1)) (1 - z/((a+2)(a+3)) (1 - …))` with `n` factors, in fixed point. -/
def alternatingSeries (z : Nat) : Nat → Nat → Nat
  | 0, _ => fixOne
  | n + 1, a => fixOne - z * alternatingSeries z n (a + 2) / fixOne / (a * (a + 1))

/-- The cosine of an angle in [0, π/2], in fixed point. -/
def cosFix (r : Nat) : Nat := alternatingSeries (r * r / fixOne) seriesTerms 1

/-- The sine of an angle in [0, π/2], in fixed point. -/
def sinFix (r : Nat) : Nat := r * alternatingSeries (r * r / fixOne) seriesTerms 2 / fixOne

/-- `1 + y/a (1 + y/(a+1) (1 + …))` with `n` factors, in fixed point. -/
def expSeries (y : Nat) : Nat → Nat → Nat
  | 0, _ => fixOne
  | n + 1, a => fixOne + y * expSeries y n (a + 1) / fixOne / a

/-- Two to the power of a fraction in [0, 1), in fixed point. -/
def exp2Fix (f : Nat) : Nat := expSeries (f * ln2Fix / fixOne) (2 * seriesTerms) 1

/-- Binary32 of a fixed-point magnitude, rounded once. -/
def F32.ofFix (negative : Bool) (v : Nat) : F32 := F32.pack negative (F32.roundMag (v * 2 ^ 149) fixOne)

/-- A magnitude in units of 2^-149, in fixed point (exact). -/
def fixOfUnits (m : Nat) : Nat := m * 2 ^ (512 - 149)

/-- `COS(x)`, x in radians (R4, R7): the quadrant of |x| and the angle within it give the value. -/
@[irreducible] def F32.cos (x : F32) : F32 :=
  if x.isFinite then
    let v := fixOfUnits x.mag
    let r := v % halfPiFix
    match v / halfPiFix % 4 with
    | 0 => F32.ofFix false (cosFix r)
    | 1 => F32.ofFix true (sinFix r)
    | 2 => F32.ofFix true (cosFix r)
    | _ => F32.ofFix false (sinFix r)
  else Config.nonFiniteElementary .cos x

/-- `SIN(x)`, x in radians (R4, R7); the sine of a zero is +0 (log entry 7). -/
@[irreducible] def F32.sin (x : F32) : F32 :=
  if x.isFinite then
    let negative := x.sign && decide (x.low ≠ 0)
    let v := fixOfUnits x.mag
    let r := v % halfPiFix
    match v / halfPiFix % 4 with
    | 0 => F32.ofFix negative (sinFix r)
    | 1 => F32.ofFix negative (cosFix r)
    | 2 => F32.ofFix (!negative) (sinFix r)
    | _ => F32.ofFix (!negative) (cosFix r)
  else Config.nonFiniteElementary .sin x

/-- `EXP2(x)` (R4, R7): 2^x is 2^k times the power of the remaining fraction, k the floor of x. Beyond the
range of binary32 it overflows to infinity or underflows to zero. -/
@[irreducible] def F32.exp2 (x : F32) : F32 :=
  if x.isFinite then
    let m := x.mag
    if x.sign then
      let k := (m + (2 ^ 149 - 1)) / 2 ^ 149
      if 200 < k then F32.pack false 0
      else F32.pack false (F32.roundMag (exp2Fix (fixOfUnits (k * 2 ^ 149 - m)) * 2 ^ 149) (fixOne * 2 ^ k))
    else
      let k := m / 2 ^ 149
      if 128 ≤ k then F32.pack false F32.infMag
      else F32.pack false (F32.roundMag (exp2Fix (fixOfUnits (m % 2 ^ 149)) * 2 ^ (149 + k)) fixOne)
  else Config.nonFiniteElementary .exp2 x

/-- The greatest `b` below `acc + 2^k` with `ok`, found bit by bit from bit `k - 1` down, for an `ok` that
holds of all numbers up to some bound. -/
def greatestBits (ok : Nat → Bool) : Nat → Nat → Nat
  | 0, acc => acc
  | k + 1, acc => greatestBits ok k (if ok (acc + 2 ^ k) then acc + 2 ^ k else acc)

/-- `to_f32` of the positive real `(num / den)^(1/n)`, by exact comparison of n-th powers (R110). -/
def rootF32 (n num den : Nat) : F32 :=
  let target := num * 2 ^ (149 * n)
  let b := greatestBits (fun m => decide (F32.unitsOf m ^ n * den ≤ target)) 31 0
  let twiceMid := F32.unitsOf b + F32.unitsOf (b + 1)
  let m := twiceMid ^ n * den
  if m < target * 2 ^ n then F32.pack false (b + 1)
  else if target * 2 ^ n < m then F32.pack false b
  else if b % 2 = 0 then F32.pack false b else F32.pack false (b + 1)

end Sys2Proof
end

