-- ==== Sys2Proof/Machine/Reference.lean ====
section
/-! DEFINITION. The reference configuration: the value of every parameter of R4 that this hardware takes (log
entry 9). -/

namespace Sys2Proof

/-- The reference clock multipliers (R4). -/
def referenceMultipliers : List (Nat × Nat) :=
  [(1, 16), (1, 8), (1, 4), (1, 2), (1, 1), (2, 1), (4, 1), (8, 1), (16, 1)]

/-- The reference scales (R82). -/
def referenceScales : List (List Nat) :=
  [[0, 1, 2, 3, 4, 5, 6, 7, 8, 9, 10, 11],
   [0, 2, 4, 5, 7, 9, 11, 0, 0, 0, 0, 0],
   [0, 2, 3, 5, 7, 8, 10, 0, 0, 0, 0, 0],
   [0, 2, 3, 5, 7, 9, 10, 0, 0, 0, 0, 0],
   [0, 1, 3, 5, 7, 8, 10, 0, 0, 0, 0, 0],
   [0, 2, 4, 6, 7, 9, 11, 0, 0, 0, 0, 0],
   [0, 2, 4, 5, 7, 9, 10, 0, 0, 0, 0, 0],
   [0, 1, 3, 5, 6, 8, 10, 0, 0, 0, 0, 0],
   [0, 2, 4, 7, 9, 0, 0, 0, 0, 0, 0, 0],
   [0, 3, 5, 7, 10, 0, 0, 0, 0, 0, 0, 0]]

/-- The configuration this hardware takes (R4). -/
abbrev Config.reference : Config where
  SR := 48000
  N_MAX := 64
  PHASE_BITS := 48
  MULT_TABLE := referenceMultipliers
  MULT_UNITY := 4
  SCALE_TABLE := referenceScales
  NUM_SCALES := 10
  ROOT_NOTE := 69
  ROOT_HZ := F32.ofInt 440
  NOTE_MIN := 0
  NOTE_MAX := 127
  DEFAULT_NOTE := 60
  TRANSPOSE_MIN := -64
  TRANSPOSE_MAX := 64
  FILTER_REALIZATION := .direct
  NF := 512
  NQ := 32
  ENV_EPS := ⟨0x38D1B717⟩
  COS := F32.cos
  SIN := F32.sin
  EXP2 := F32.exp2
  BLOCK_SIZE := Config.openBlockSize
  BYTE_ORDER := .littleEndian

end Sys2Proof
end

