-- ==== Sys2Proof/Syntax.lean ====
section
/-! DEFINITION. The command set (R48): the selectors of `SEL` (R31), the error codes (R146), and `Instr`,
one constructor per row of spec/opcode_table.json. Operands are held as the rule reads them (R46): a
selector as the unit it names, an index and a length as a natural number, an i32 as an integer, an f32 as
a binary32 value. -/

namespace Sys2Proof

/-- A sequencer: `SEL` 0 TRIG0, 1 TRIG1, 2 PITCH (R48). -/
inductive SeqSel where
  | trig0 | trig1 | pitch
  deriving DecidableEq, Repr

/-- A trigger sequencer: `SEL` 0 TRIG0, 1 TRIG1 (R48). -/
inductive TrigSel where
  | trig0 | trig1
  deriving DecidableEq, Repr

/-- An envelope: `SEL` 0 ENV0, 1 ENV1 (R48). -/
inductive EnvSel where
  | env0 | env1
  deriving DecidableEq, Repr

/-- A half of a long clock register: `SEL` 0 bits 31:0, 1 bits 63:32 (R48). -/
inductive HalfSel where
  | lo | hi
  deriving DecidableEq, Repr

/-- An output channel: `SEL` 0 left, 1 right (R48). -/
inductive ChannelSel where
  | left | right
  deriving DecidableEq, Repr

/-- A filter coefficient: `SEL` 0 A0, 1 A1, 2 A2, 3 B1, 4 B2 (R48). -/
inductive CoefSel where
  | a0 | a1 | a2 | b1 | b2
  deriving DecidableEq, Repr

/-- A filter history register: `SEL` 0 X1, 1 X2, 2 Y1, 3 Y2 (R48). -/
inductive HistSel where
  | x1 | x2 | y1 | y2
  deriving DecidableEq, Repr

/-- A sine recurrence register: `SEL` 0 COEFF, 1 Y1, 2 Y2 (R48). -/
inductive SineSel where
  | coeff | y1 | y2
  deriving DecidableEq, Repr

/-- The error codes 1 to 8 of R146. -/
inductive ErrCode where
  | illegalOp | reserved | badSel | index | noteRange | length | freq | nan
  deriving DecidableEq, Repr

/-- The host commands (R48), one constructor per row of spec/opcode_table.json. -/
inductive Instr where
  | nop
  | engGetId
  | engGetStatus
  | engGetErrCode
  | transportStart
  | transportStop
  | engGetOut (c : ChannelSel)
  | clkInit (f : F32)
  | clkSetFreq (f : F32)
  | clkSetBpm (bpm : F32)
  | clkSetMult (k : Int)
  | clkSetPhaseToEnd
  | clkGetFreq
  | clkGetMult
  | clkGetPhase (h : HalfSel)
  | clkGetInc (h : HalfSel)
  | seqInit (q : SeqSel) (n : Nat)
  | seqSetCurrent (q : SeqSel) (i : Nat)
  | trigToggle (t : TrigSel) (i : Nat)
  | pitchSetNote (i : Nat) (n : Int)
  | pitchSetTranspose (d : Int)
  | seqGetCurrent (q : SeqSel)
  | seqGetLength (q : SeqSel)
  | trigGetStep (t : TrigSel) (i : Nat)
  | trigGetCurrentActive (t : TrigSel)
  | pitchGetNote (i : Nat)
  | pitchGetTranspose
  | pitchGetCurrentFreq
  | pitchGetCurrentName
  | qSetKey (k : Int)
  | qSetScale (k : Int)
  | qQuantize (n : Int)
  | qNoteToHz (quantized : Bool) (n : Int)
  | qNoteToName (n : Int)
  | qGetKey
  | qGetScale
  | oscSetFreq (f : F32)
  | oscSetAmp (a : F32)
  | oscSetMode (m : Word)
  | oscGetFreq
  | oscGetAmp
  | oscGetMode
  | oscGetPhase
  | oscGetSineState (r : SineSel)
  | filtSetFreq (f : F32)
  | filtSetQ (q : F32)
  | filtAddFreq (d : F32)
  | filtSetEnvDepth (d : F32)
  | filtGetFreq
  | filtGetQ
  | filtGetMod
  | filtGetEffFreq
  | filtGetEnvDepth
  | filtGetCoef (r : CoefSel)
  | filtGetState (r : HistSel)
  | envSetAttack (e : EnvSel) (t : F32)
  | envSetDecay (e : EnvSel) (t : F32)
  | envTrigger (e : EnvSel)
  | envGetAttack (e : EnvSel)
  | envGetDecay (e : EnvSel)
  | envGetOutput (e : EnvSel)
  | envGetStage (e : EnvSel)
  | envGetTimer (e : EnvSel)
  deriving DecidableEq, Repr

end Sys2Proof
end

