-- ==== Sys2Proof/WellFormed.lean ====
section
/-! DEFINITION. Which instructions an encoding can carry (R43, R46): an index fits 16 bits, a u32 operand
32 bits, an i32 operand the two's-complement range. Selectors and f32 operands carry their own bounds in
their types. -/

namespace Sys2Proof

/-- `idx` fits `CMD[15:0]` (R43). -/
def fitsIdx (i : Nat) : Bool := decide (i < 2 ^ 16)

/-- A u32 operand fits `ARG` (R46). -/
def fitsU32 (n : Nat) : Bool := decide (n < 2 ^ 32)

/-- An i32 operand fits `ARG` (R46). -/
def fitsI32 (n : Int) : Bool := decide (-(2 ^ 31) ≤ n) && decide (n < 2 ^ 31)

/-- The operands of `i` fit the fields of its encoding. -/
def Instr.wellFormed (i : Instr) : Bool :=
  match i with
  | .clkSetMult k => fitsI32 k
  | .seqInit _ n => fitsU32 n
  | .seqSetCurrent _ i => fitsIdx i
  | .trigToggle _ i => fitsIdx i
  | .pitchSetNote i n => fitsIdx i && fitsI32 n
  | .pitchSetTranspose d => fitsI32 d
  | .trigGetStep _ i => fitsIdx i
  | .pitchGetNote i => fitsIdx i
  | .qSetKey k => fitsI32 k
  | .qSetScale k => fitsI32 k
  | .qQuantize n => fitsI32 n
  | .qNoteToHz _ n => fitsI32 n
  | .qNoteToName n => fitsI32 n
  | .nop => true
  | .engGetId => true
  | .engGetStatus => true
  | .engGetErrCode => true
  | .transportStart => true
  | .transportStop => true
  | .engGetOut _ => true
  | .clkInit _ => true
  | .clkSetFreq _ => true
  | .clkSetBpm _ => true
  | .clkSetPhaseToEnd => true
  | .clkGetFreq => true
  | .clkGetMult => true
  | .clkGetPhase _ => true
  | .clkGetInc _ => true
  | .seqGetCurrent _ => true
  | .seqGetLength _ => true
  | .trigGetCurrentActive _ => true
  | .pitchGetTranspose => true
  | .pitchGetCurrentFreq => true
  | .pitchGetCurrentName => true
  | .qGetKey => true
  | .qGetScale => true
  | .oscSetFreq _ => true
  | .oscSetAmp _ => true
  | .oscSetMode _ => true
  | .oscGetFreq => true
  | .oscGetAmp => true
  | .oscGetMode => true
  | .oscGetPhase => true
  | .oscGetSineState _ => true
  | .filtSetFreq _ => true
  | .filtSetQ _ => true
  | .filtAddFreq _ => true
  | .filtSetEnvDepth _ => true
  | .filtGetFreq => true
  | .filtGetQ => true
  | .filtGetMod => true
  | .filtGetEffFreq => true
  | .filtGetEnvDepth => true
  | .filtGetCoef _ => true
  | .filtGetState _ => true
  | .envSetAttack _ _ => true
  | .envSetDecay _ _ => true
  | .envTrigger _ => true
  | .envGetAttack _ => true
  | .envGetDecay _ => true
  | .envGetOutput _ => true
  | .envGetStage _ => true
  | .envGetTimer _ => true

end Sys2Proof
end

