-- ==== Sys2Proof/Decode.lean ====
section
/-! DEFINITION. The decoder of R47 with the opcode map of R48, total on every command and rejecting by
the error code of the first step that fails, and the encoder written from the same map. -/

namespace Sys2Proof

open Sys2Proof.Machine

/-- What decoding gives: a command of the map, or the error of R47 steps 1 to 3. -/
inductive Decoded where
  | ok (i : Instr)
  | rejected (e : ErrCode)
  deriving DecidableEq, Repr

/-- `CMD[31:24]` (R43). -/
def opOf (c : Command) : BitVec 8 := c.cmd.extractLsb' 24 8

/-- `CMD[23:16]` (R43, R46). -/
def selOf (c : Command) : BitVec 8 := c.cmd.extractLsb' 16 8

/-- `CMD[15:0]` (R43). -/
def idxField (c : Command) : BitVec 16 := c.cmd.extractLsb' 0 16

/-- `idx`, the zero-extended index (R46). -/
def idxOf (c : Command) : Nat := (idxField c).toNat

/-- The selector values of R48, each as the unit it names; `none` is a value at or above `SEL_LIMIT`. -/
def seqSelOf (v : BitVec 8) : Option SeqSel :=
  if v = 0 then some .trig0 else if v = 1 then some .trig1 else if v = 2 then some .pitch else none

@[inherit_doc seqSelOf]
def trigSelOf (v : BitVec 8) : Option TrigSel :=
  if v = 0 then some .trig0 else if v = 1 then some .trig1 else none

@[inherit_doc seqSelOf]
def envSelOf (v : BitVec 8) : Option EnvSel :=
  if v = 0 then some .env0 else if v = 1 then some .env1 else none

@[inherit_doc seqSelOf]
def halfSelOf (v : BitVec 8) : Option HalfSel :=
  if v = 0 then some .lo else if v = 1 then some .hi else none

@[inherit_doc seqSelOf]
def channelSelOf (v : BitVec 8) : Option ChannelSel :=
  if v = 0 then some .left else if v = 1 then some .right else none

@[inherit_doc seqSelOf]
def coefSelOf (v : BitVec 8) : Option CoefSel :=
  if v = 0 then some .a0 else if v = 1 then some .a1 else if v = 2 then some .a2
  else if v = 3 then some .b1 else if v = 4 then some .b2 else none

@[inherit_doc seqSelOf]
def histSelOf (v : BitVec 8) : Option HistSel :=
  if v = 0 then some .x1 else if v = 1 then some .x2 else if v = 2 then some .y1
  else if v = 3 then some .y2 else none

@[inherit_doc seqSelOf]
def sineSelOf (v : BitVec 8) : Option SineSel :=
  if v = 0 then some .coeff else if v = 1 then some .y1 else if v = 2 then some .y2 else none

/-- A format that uses neither `SEL` nor `IDX` (N, F, I): R47 step 2. -/
def formN (c : Command) (i : Instr) : Decoded :=
  if selOf c ≠ 0 ∨ idxField c ≠ 0 then .rejected .reserved else .ok i

/-- A format that uses `SEL` only (S, SF, SI): R47 steps 2 and 3. -/
def formS {σ : Type} (c : Command) (unitOf : BitVec 8 → Option σ) (mk : σ → Instr) : Decoded :=
  if idxField c ≠ 0 then .rejected .reserved else
    match unitOf (selOf c) with
    | none => .rejected .badSel
    | some u => .ok (mk u)

/-- A format that uses `SEL` and `IDX` (SX): R47 step 3. -/
def formSX {σ : Type} (c : Command) (unitOf : BitVec 8 → Option σ) (mk : σ → Instr) : Decoded :=
  match unitOf (selOf c) with
  | none => .rejected .badSel
  | some u => .ok (mk u)

/-- A format that uses `IDX` only (X, XI): R47 step 2. -/
def formX (c : Command) (i : Instr) : Decoded :=
  if selOf c ≠ 0 then .rejected .reserved else .ok i

/-- Q_NOTE_TO_HZ, whose `IDX` is a flag in bit 0 with bits 15:1 zero: R47 step 2, R90. -/
def formFlag (c : Command) (mk : Bool → Instr) : Decoded :=
  if selOf c ≠ 0 ∨ (idxField c).extractLsb' 1 15 ≠ 0 then .rejected .reserved
  else .ok (mk ((idxField c).getLsbD 0))

/-- Decoding a command (R47 steps 1 to 3) by the opcode map (R48). -/
def decode (c : Command) : Decoded :=
  match (opOf c).toNat with
  | 0x00 => formN c .nop
  | 0x01 => formN c .engGetId
  | 0x02 => formN c .engGetStatus
  | 0x03 => formN c .engGetErrCode
  | 0x04 => formN c .transportStart
  | 0x05 => formN c .transportStop
  | 0x06 => formS c channelSelOf .engGetOut
  | 0x10 => formN c (.clkInit (asF32 c.arg))
  | 0x11 => formN c (.clkSetFreq (asF32 c.arg))
  | 0x12 => formN c (.clkSetBpm (asF32 c.arg))
  | 0x13 => formN c (.clkSetMult (asI32 c.arg))
  | 0x14 => formN c .clkSetPhaseToEnd
  | 0x18 => formN c .clkGetFreq
  | 0x19 => formN c .clkGetMult
  | 0x1A => formS c halfSelOf .clkGetPhase
  | 0x1B => formS c halfSelOf .clkGetInc
  | 0x20 => formS c seqSelOf fun u => .seqInit u (asU32 c.arg)
  | 0x21 => formSX c seqSelOf fun u => .seqSetCurrent u (idxOf c)
  | 0x22 => formSX c trigSelOf fun u => .trigToggle u (idxOf c)
  | 0x23 => formX c (.pitchSetNote (idxOf c) (asI32 c.arg))
  | 0x24 => formN c (.pitchSetTranspose (asI32 c.arg))
  | 0x28 => formS c seqSelOf .seqGetCurrent
  | 0x29 => formS c seqSelOf .seqGetLength
  | 0x2A => formSX c trigSelOf fun u => .trigGetStep u (idxOf c)
  | 0x2B => formS c trigSelOf .trigGetCurrentActive
  | 0x2C => formX c (.pitchGetNote (idxOf c))
  | 0x2D => formN c .pitchGetTranspose
  | 0x2E => formN c .pitchGetCurrentFreq
  | 0x2F => formN c .pitchGetCurrentName
  | 0x30 => formN c (.qSetKey (asI32 c.arg))
  | 0x31 => formN c (.qSetScale (asI32 c.arg))
  | 0x32 => formN c (.qQuantize (asI32 c.arg))
  | 0x33 => formFlag c fun q => .qNoteToHz q (asI32 c.arg)
  | 0x34 => formN c (.qNoteToName (asI32 c.arg))
  | 0x38 => formN c .qGetKey
  | 0x39 => formN c .qGetScale
  | 0x40 => formN c (.oscSetFreq (asF32 c.arg))
  | 0x41 => formN c (.oscSetAmp (asF32 c.arg))
  | 0x42 => formN c (.oscSetMode c.arg)
  | 0x48 => formN c .oscGetFreq
  | 0x49 => formN c .oscGetAmp
  | 0x4A => formN c .oscGetMode
  | 0x4B => formN c .oscGetPhase
  | 0x4C => formS c sineSelOf .oscGetSineState
  | 0x50 => formN c (.filtSetFreq (asF32 c.arg))
  | 0x51 => formN c (.filtSetQ (asF32 c.arg))
  | 0x52 => formN c (.filtAddFreq (asF32 c.arg))
  | 0x53 => formN c (.filtSetEnvDepth (asF32 c.arg))
  | 0x58 => formN c .filtGetFreq
  | 0x59 => formN c .filtGetQ
  | 0x5A => formN c .filtGetMod
  | 0x5B => formN c .filtGetEffFreq
  | 0x5C => formN c .filtGetEnvDepth
  | 0x5D => formS c coefSelOf .filtGetCoef
  | 0x5E => formS c histSelOf .filtGetState
  | 0x60 => formS c envSelOf fun u => .envSetAttack u (asF32 c.arg)
  | 0x61 => formS c envSelOf fun u => .envSetDecay u (asF32 c.arg)
  | 0x62 => formS c envSelOf .envTrigger
  | 0x68 => formS c envSelOf .envGetAttack
  | 0x69 => formS c envSelOf .envGetDecay
  | 0x6A => formS c envSelOf .envGetOutput
  | 0x6B => formS c envSelOf .envGetStage
  | 0x6C => formS c envSelOf .envGetTimer
  | _ => .rejected .illegalOp

/-- Decoding a serialised command; anything but eight bytes is no command (R43). -/
def decodeBytes (order : ByteOrder) (bs : List Byte) : Option Decoded := (commandOfBytes order bs).map decode

/-- The `SEL` value that names a unit (R48). -/
def seqSelNumber (u : SeqSel) : BitVec 8 :=
  match u with
  | .trig0 => 0
  | .trig1 => 1
  | .pitch => 2

@[inherit_doc seqSelNumber]
def trigSelNumber (u : TrigSel) : BitVec 8 :=
  match u with
  | .trig0 => 0
  | .trig1 => 1

@[inherit_doc seqSelNumber]
def envSelNumber (u : EnvSel) : BitVec 8 :=
  match u with
  | .env0 => 0
  | .env1 => 1

@[inherit_doc seqSelNumber]
def halfSelNumber (u : HalfSel) : BitVec 8 :=
  match u with
  | .lo => 0
  | .hi => 1

@[inherit_doc seqSelNumber]
def channelSelNumber (u : ChannelSel) : BitVec 8 :=
  match u with
  | .left => 0
  | .right => 1

@[inherit_doc seqSelNumber]
def coefSelNumber (u : CoefSel) : BitVec 8 :=
  match u with
  | .a0 => 0
  | .a1 => 1
  | .a2 => 2
  | .b1 => 3
  | .b2 => 4

@[inherit_doc seqSelNumber]
def histSelNumber (u : HistSel) : BitVec 8 :=
  match u with
  | .x1 => 0
  | .x2 => 1
  | .y1 => 2
  | .y2 => 3

@[inherit_doc seqSelNumber]
def sineSelNumber (u : SineSel) : BitVec 8 :=
  match u with
  | .coeff => 0
  | .y1 => 1
  | .y2 => 2

/-- The command with the given fields (R43, R48: the pattern of `CMD` is the three fields, `OP` highest). -/
def packCommand (op sel : BitVec 8) (idx : BitVec 16) (arg : Word) : Command :=
  ⟨op ++ sel ++ idx, arg⟩

/-- The words of a well-formed instruction (R48, R45); an argument the format ignores is written 0 (R52). -/
def encode (i : Instr) : Command :=
  match i with
  | .nop => packCommand 0x00 0 0 0
  | .engGetId => packCommand 0x01 0 0 0
  | .engGetStatus => packCommand 0x02 0 0 0
  | .engGetErrCode => packCommand 0x03 0 0 0
  | .transportStart => packCommand 0x04 0 0 0
  | .transportStop => packCommand 0x05 0 0 0
  | .engGetOut c => packCommand 0x06 (channelSelNumber c) 0 0
  | .clkInit f => packCommand 0x10 0 0 f.bits
  | .clkSetFreq f => packCommand 0x11 0 0 f.bits
  | .clkSetBpm bpm => packCommand 0x12 0 0 bpm.bits
  | .clkSetMult k => packCommand 0x13 0 0 (patternOfInt k)
  | .clkSetPhaseToEnd => packCommand 0x14 0 0 0
  | .clkGetFreq => packCommand 0x18 0 0 0
  | .clkGetMult => packCommand 0x19 0 0 0
  | .clkGetPhase h => packCommand 0x1A (halfSelNumber h) 0 0
  | .clkGetInc h => packCommand 0x1B (halfSelNumber h) 0 0
  | .seqInit q n => packCommand 0x20 (seqSelNumber q) 0 (BitVec.ofNat 32 n)
  | .seqSetCurrent q i => packCommand 0x21 (seqSelNumber q) (BitVec.ofNat 16 i) 0
  | .trigToggle t i => packCommand 0x22 (trigSelNumber t) (BitVec.ofNat 16 i) 0
  | .pitchSetNote i n => packCommand 0x23 0 (BitVec.ofNat 16 i) (patternOfInt n)
  | .pitchSetTranspose d => packCommand 0x24 0 0 (patternOfInt d)
  | .seqGetCurrent q => packCommand 0x28 (seqSelNumber q) 0 0
  | .seqGetLength q => packCommand 0x29 (seqSelNumber q) 0 0
  | .trigGetStep t i => packCommand 0x2A (trigSelNumber t) (BitVec.ofNat 16 i) 0
  | .trigGetCurrentActive t => packCommand 0x2B (trigSelNumber t) 0 0
  | .pitchGetNote i => packCommand 0x2C 0 (BitVec.ofNat 16 i) 0
  | .pitchGetTranspose => packCommand 0x2D 0 0 0
  | .pitchGetCurrentFreq => packCommand 0x2E 0 0 0
  | .pitchGetCurrentName => packCommand 0x2F 0 0 0
  | .qSetKey k => packCommand 0x30 0 0 (patternOfInt k)
  | .qSetScale k => packCommand 0x31 0 0 (patternOfInt k)
  | .qQuantize n => packCommand 0x32 0 0 (patternOfInt n)
  | .qNoteToHz q n => packCommand 0x33 0 (if q then 1 else 0) (patternOfInt n)
  | .qNoteToName n => packCommand 0x34 0 0 (patternOfInt n)
  | .qGetKey => packCommand 0x38 0 0 0
  | .qGetScale => packCommand 0x39 0 0 0
  | .oscSetFreq f => packCommand 0x40 0 0 f.bits
  | .oscSetAmp a => packCommand 0x41 0 0 a.bits
  | .oscSetMode m => packCommand 0x42 0 0 m
  | .oscGetFreq => packCommand 0x48 0 0 0
  | .oscGetAmp => packCommand 0x49 0 0 0
  | .oscGetMode => packCommand 0x4A 0 0 0
  | .oscGetPhase => packCommand 0x4B 0 0 0
  | .oscGetSineState r => packCommand 0x4C (sineSelNumber r) 0 0
  | .filtSetFreq f => packCommand 0x50 0 0 f.bits
  | .filtSetQ q => packCommand 0x51 0 0 q.bits
  | .filtAddFreq d => packCommand 0x52 0 0 d.bits
  | .filtSetEnvDepth d => packCommand 0x53 0 0 d.bits
  | .filtGetFreq => packCommand 0x58 0 0 0
  | .filtGetQ => packCommand 0x59 0 0 0
  | .filtGetMod => packCommand 0x5A 0 0 0
  | .filtGetEffFreq => packCommand 0x5B 0 0 0
  | .filtGetEnvDepth => packCommand 0x5C 0 0 0
  | .filtGetCoef r => packCommand 0x5D (coefSelNumber r) 0 0
  | .filtGetState r => packCommand 0x5E (histSelNumber r) 0 0
  | .envSetAttack e t => packCommand 0x60 (envSelNumber e) 0 t.bits
  | .envSetDecay e t => packCommand 0x61 (envSelNumber e) 0 t.bits
  | .envTrigger e => packCommand 0x62 (envSelNumber e) 0 0
  | .envGetAttack e => packCommand 0x68 (envSelNumber e) 0 0
  | .envGetDecay e => packCommand 0x69 (envSelNumber e) 0 0
  | .envGetOutput e => packCommand 0x6A (envSelNumber e) 0 0
  | .envGetStage e => packCommand 0x6B (envSelNumber e) 0 0
  | .envGetTimer e => packCommand 0x6C (envSelNumber e) 0 0

/-- The instruction the decoder reads from the bits `w`, numbered as spec/opcode_table.json numbers them:
the words are laid out as bytes in the order of a serialising transport of this hardware (R34) and read back from
there. -/
def decodeTableWord (nbits w : Nat) : Option Instr :=
  let order := Config.reference.BYTE_ORDER
  match decodeBytes order (bytesOfCommand order (commandOfBits nbits w)) with
  | some (.ok i) => some i
  | _ => none

end Sys2Proof
end

