-- ==== Sys2Proof/Machine/State.lean ====
section
/-! DEFINITION. The machine's state as plain data: every register and pattern memory of 10_state.md, one
structure per component, and the three interface channels of R27 held as lists (log entries 1 and 3); the
reasons a step can stop; and the state right after reset (R160). Each component belongs to a configuration (R4),
which is no part of its data; where none is named it is the reference one (log entry 9). -/

namespace Sys2Proof.Machine

open Sys2Proof

/-- The stage of an envelope (R22). -/
inductive Stage where
  | idle | attack | decay
  deriving DecidableEq, Repr

/-- Clock registers (R12). `inc` is a derived register: R54 alone writes it. -/
structure Clock (cfg : Config := Config.reference) where
  freq : F32
  multIdx : BitVec 8
  phase : BitVec cfg.PHASE_BITS
  inc : BitVec (cfg.PHASE_BITS + 1)
  deriving DecidableEq, Repr

/-- A trigger sequencer: its length, its playhead (R14) and its pattern memory (R15). -/
structure TrigTrack (cfg : Config := Config.reference) where
  len : BitVec 17
  cur : BitVec 16
  active : Vector Bool cfg.N_MAX
  deriving DecidableEq, Repr

/-- The pitch sequencer: its length, playhead and transpose (R14) and its pattern memory (R15). -/
structure PitchTrack (cfg : Config := Config.reference) where
  len : BitVec 17
  cur : BitVec 16
  transpose : BitVec 8
  note : Vector (BitVec 16) cfg.N_MAX
  deriving DecidableEq, Repr

/-- Quantizer registers (R16). -/
structure Quantizer (cfg : Config := Config.reference) where
  key : BitVec 4
  scale : BitVec 8
  deriving DecidableEq, Repr

/-- Oscillator registers (R19). -/
structure Oscillator (cfg : Config := Config.reference) where
  freq : F32
  inc : F32
  amp : F32
  mode : Word
  phase : F32
  coeff : F32
  y1 : F32
  y2 : F32
  deriving DecidableEq, Repr

/-- The five stored filter coefficients (R20). -/
structure Coefs where
  a0 : F32
  a1 : F32
  a2 : F32
  b1 : F32
  b2 : F32
  deriving DecidableEq, Repr

/-- Filter registers (R20). `eff` and `coef` are derived: R111 alone writes them. -/
structure FilterUnit (cfg : Config := Config.reference) where
  freq : F32
  q : F32
  mod : F32
  depth : F32
  eff : F32
  coef : Coefs
  x1 : F32
  x2 : F32
  y1 : F32
  y2 : F32
  deriving DecidableEq, Repr

/-- Envelope registers (R22). -/
structure Envelope (cfg : Config := Config.reference) where
  stage : Stage
  attack : F32
  decay : F32
  timer : F32
  out : F32
  deriving DecidableEq, Repr

/-- Engine registers (R23). -/
structure Engine where
  play : Bool
  err : Bool
  errCode : BitVec 8
  lastTick : Bool
  lastTrig : Bool
  outL : F32
  outR : F32
  deriving DecidableEq, Repr

/-- One response of the response channel: `RSTATUS` and `RDATA` (R44). -/
structure Response where
  status : BitVec 8
  data : Word
  deriving DecidableEq, Repr

/-- One output pair of the audio channel (R27). -/
structure StereoPair where
  left : F32
  right : F32
  deriving DecidableEq, Repr

/-- One atomic event that an agent issues (R27, R36): a host command, a sample request, a reset. -/
inductive Event where
  | command (c : Command)
  | sample
  | reset
  deriving DecidableEq, Repr

/-- The state of the machine: the components of R1, and the interface channels of R27: the merge of events
still to be applied (R37), the responses given so far in command order (R44), the output pairs delivered
so far in request order. -/
structure State (cfg : Config := Config.reference) where
  clk : Clock cfg
  trig0 : TrigTrack cfg
  trig1 : TrigTrack cfg
  pitch : PitchTrack cfg
  quant : Quantizer cfg
  osc : Oscillator cfg
  filt : FilterUnit cfg
  env0 : Envelope cfg
  env1 : Envelope cfg
  eng : Engine
  inputs : List Event
  responses : List Response
  audioOut : List StereoPair
  deriving DecidableEq, Repr

/-- Why the machine stops with a fault: never. The hardware has no traps and no step fails (60_exceptions.md,
R150, R153), so there is no constructor. -/
inductive Fault where
  deriving DecidableEq, Repr

/-- Why an instruction is refused. -/
inductive Refusal where
  /-- Raised by `exec` for an instruction that has no meaning yet; safe: nothing follows from it. -/
  | notModelled (mnemonic : String)
  deriving DecidableEq, Repr

/-- What a meaning answers. -/
abbrev Result (cfg : Config := Config.reference) := Host.Outcome (State cfg) Fault Refusal

/-- +0.0. -/
abbrev zeroF32 : F32 := ⟨0x00000000⟩

/-- A trigger sequencer at reset (R14, R15). -/
def TrigTrack.reset {cfg : Config} : TrigTrack cfg :=
  { len := 8, cur := 0, active := Vector.replicate cfg.N_MAX false }

/-- An envelope at reset (R22). -/
def Envelope.reset {cfg : Config} : Envelope cfg :=
  { stage := .idle, attack := ⟨0x3C23D70A⟩, decay := ⟨0x3F000000⟩, timer := zeroF32, out := zeroF32 }

/-- The engine at reset (R23). -/
def Engine.reset : Engine :=
  { play := false, err := false, errCode := 0, lastTick := false, lastTrig := false, outL := zeroF32,
    outR := zeroF32 }

/-- This hardware right after reset (R160), in the reference configuration: every register at the reset value of its table in 10_state.md; the
interface channels are empty (log entry 3). -/
def State.reset : State where
  clk := { freq := ⟨0x40000000⟩, multIdx := 4, phase := 0, inc := 11728124030 }
  trig0 := TrigTrack.reset
  trig1 := TrigTrack.reset
  pitch := { len := 8, cur := 0, transpose := 0, note := Vector.replicate 64 60 }
  quant := { key := 0, scale := 0 }
  osc :=
    { freq := ⟨0x43DC0000⟩, inc := ⟨0x3C162FC9⟩, amp := ⟨0x3F800000⟩, mode := 0, phase := zeroF32,
      coeff := ⟨0x3FFF9354⟩, y1 := ⟨0xBD6BC841⟩, y2 := ⟨0xBDEB642B⟩ }
  filt :=
    { freq := ⟨0x469C4000⟩, q := ⟨0x3F3504F3⟩, mod := zeroF32, depth := zeroF32, eff := ⟨0x469C4000⟩,
      coef :=
        { a0 := ⟨0x3F307660⟩, a1 := ⟨0x3FB07660⟩, a2 := ⟨0x3F307660⟩, b1 := ⟨0x3FA3CB01⟩,
          b2 := ⟨0x3EF486FC⟩ },
      x1 := zeroF32, x2 := zeroF32, y1 := zeroF32, y2 := zeroF32 }
  env0 := Envelope.reset
  env1 := Envelope.reset
  eng := Engine.reset
  inputs := []
  responses := []
  audioOut := []

end Sys2Proof.Machine
end

