-- ==== Sys2Proof/Machine/Flags.lean ====
section
/-! DEFINITION. The status flags: the error numbers (R146), the sticky error latch (R147), the status word
(R24) and the numbers of the envelope stages (R22). -/

namespace Sys2Proof.Machine

open Sys2Proof

/-- The number of an error code (R146). -/
def errNumber (e : ErrCode) : BitVec 8 :=
  match e with
  | .illegalOp => 1
  | .reserved => 2
  | .badSel => 3
  | .index => 4
  | .noteRange => 5
  | .length => 6
  | .freq => 7
  | .nan => 8

/-- The first rejection since reset sets `ERR` and `ERR_CODE`; a later one leaves them (R147). -/
def latchError (code : BitVec 8) (g : Engine) : Engine :=
  if g.err then g else { g with err := true, errCode := code }

/-- The status word `{zext_28(0), LAST_TRIG, LAST_TICK, ERR, PLAY}` (R24). -/
def statusWord (g : Engine) : Word :=
  (0 : BitVec 28) ++ BitVec.ofBool g.lastTrig ++ BitVec.ofBool g.lastTick ++ BitVec.ofBool g.err
    ++ BitVec.ofBool g.play

/-- The number `STAGE_e` holds (R22). -/
def stageNumber (g : Stage) : BitVec 2 :=
  match g with
  | .idle => 0
  | .attack => 1
  | .decay => 2

end Sys2Proof.Machine
end

