-- ==== Sys2Proof/Machine/Ops.lean ====
section
/-! DEFINITION. The named operations over the state: replacing a component, reading and writing the units a
selector names (R31) and the pattern memories (R15), responding (R44), rejecting a command (R147), the
hardware's whole taking of an exception (there is no return from one, R153). -/

namespace Sys2Proof.Machine

open Sys2Proof

variable {cfg : Config}

/-- Replace one component of the state, and nothing else. -/
def State.setClk (s : State cfg) (c : Clock cfg) : State cfg := { s with clk := c }

@[inherit_doc State.setClk]
def State.setTrig0 (s : State cfg) (k : TrigTrack cfg) : State cfg := { s with trig0 := k }

@[inherit_doc State.setClk]
def State.setTrig1 (s : State cfg) (k : TrigTrack cfg) : State cfg := { s with trig1 := k }

@[inherit_doc State.setClk]
def State.setPitch (s : State cfg) (k : PitchTrack cfg) : State cfg := { s with pitch := k }

@[inherit_doc State.setClk]
def State.setQuant (s : State cfg) (q : Quantizer cfg) : State cfg := { s with quant := q }

@[inherit_doc State.setClk]
def State.setOsc (s : State cfg) (o : Oscillator cfg) : State cfg := { s with osc := o }

@[inherit_doc State.setClk]
def State.setFilt (s : State cfg) (f : FilterUnit cfg) : State cfg := { s with filt := f }

@[inherit_doc State.setClk]
def State.setEnv0 (s : State cfg) (e : Envelope cfg) : State cfg := { s with env0 := e }

@[inherit_doc State.setClk]
def State.setEnv1 (s : State cfg) (e : Envelope cfg) : State cfg := { s with env1 := e }

@[inherit_doc State.setClk]
def State.setEng (s : State cfg) (g : Engine) : State cfg := { s with eng := g }

@[inherit_doc State.setClk]
def State.setInputs (s : State cfg) (es : List Event) : State cfg := { s with inputs := es }

/-- Put one response on the response channel, after those before it (R44). -/
def State.respond (s : State cfg) (r : Response) : State cfg := { s with responses := s.responses ++ [r] }

/-- Put one output pair on the audio channel, after those before it (R27). -/
def State.deliver (s : State cfg) (p : StereoPair) : State cfg := { s with audioOut := s.audioOut ++ [p] }

/-- The trigger sequencer a selector names (R31). -/
def State.trig (s : State cfg) (t : TrigSel) : TrigTrack cfg :=
  match t with
  | .trig0 => s.trig0
  | .trig1 => s.trig1

/-- Replace the trigger sequencer a selector names (R31). -/
def State.setTrig (s : State cfg) (t : TrigSel) (k : TrigTrack cfg) : State cfg :=
  match t with
  | .trig0 => s.setTrig0 k
  | .trig1 => s.setTrig1 k

/-- The envelope a selector names (R31). -/
def State.env (s : State cfg) (e : EnvSel) : Envelope cfg :=
  match e with
  | .env0 => s.env0
  | .env1 => s.env1

/-- Replace the envelope a selector names (R31). -/
def State.setEnv (s : State cfg) (e : EnvSel) (v : Envelope cfg) : State cfg :=
  match e with
  | .env0 => s.setEnv0 v
  | .env1 => s.setEnv1 v

/-- `LEN_s` of the sequencer a selector names (R14). -/
def State.seqLen (s : State cfg) (q : SeqSel) : BitVec 17 :=
  match q with
  | .trig0 => s.trig0.len
  | .trig1 => s.trig1.len
  | .pitch => s.pitch.len

/-- `CUR_s` of the sequencer a selector names (R14). -/
def State.seqCur (s : State cfg) (q : SeqSel) : BitVec 16 :=
  match q with
  | .trig0 => s.trig0.cur
  | .trig1 => s.trig1.cur
  | .pitch => s.pitch.cur

/-- `CUR_s <- i` for the sequencer a selector names (R14). -/
def State.setCur (s : State cfg) (q : SeqSel) (i : Nat) : State cfg :=
  match q with
  | .trig0 => s.setTrig0 { s.trig0 with cur := BitVec.ofNat 16 i }
  | .trig1 => s.setTrig1 { s.trig1 with cur := BitVec.ofNat 16 i }
  | .pitch => s.setPitch { s.pitch with cur := BitVec.ofNat 16 i }

/-- `ACTIVE_s[i]` (R15). An index at or above N_MAX reads inactive; no rule reads there (log entry 8). -/
def TrigTrack.stepActive (k : TrigTrack cfg) (i : Nat) : Bool := (k.active[i]?).getD false

/-- `ACTIVE_s[i] <- b` (R15). An index at or above N_MAX writes nothing; no rule writes there (log entry 8). -/
def TrigTrack.setStep (k : TrigTrack cfg) (i : Nat) (b : Bool) : TrigTrack cfg :=
  { k with active := k.active.setIfInBounds i b }

/-- `ACTIVE_s[CUR_s]` (R15). -/
def TrigTrack.currentActive (k : TrigTrack cfg) : Bool := k.stepActive k.cur.toNat

/-- `NOTE[i]` as an integer (R15). An index at or above N_MAX reads 0; no rule reads there (log entry 8). -/
def PitchTrack.noteAt (k : PitchTrack cfg) (i : Nat) : Int := ((k.note[i]?).getD 0).toInt

/-- `NOTE[i] <- n` (R15). An index at or above N_MAX writes nothing; no rule writes there (log entry 8). -/
def PitchTrack.setNote (k : PitchTrack cfg) (i : Nat) (n : Int) : PitchTrack cfg :=
  { k with note := k.note.setIfInBounds i (BitVec.ofInt 16 n) }

/-- A command that is applied and passes `v` to `respond`: status 0 and the data `v` (R8, R44). -/
def State.answer (s : State cfg) (v : Word) : State cfg := s.respond { status := 0, data := v }

/-- A command that is applied and responds nothing: status 0 and data 0 (R8, R44). -/
def State.accept (s : State cfg) : State cfg := s.answer 0

/-- REJECTION (R147), the one operation every error goes through: the state before the command, but for the
sticky `ERR` and `ERR_CODE`; the response is the code with data 0. -/
def State.reject (s : State cfg) (e : ErrCode) : State cfg :=
  (s.setEng (latchError (errNumber e) s.eng)).respond { status := errNumber e, data := 0 }

end Sys2Proof.Machine
end

