-- ==== Sys2Proof/Machine/Clock.lean ====
section
/-! DEFINITION. The clock (40_clock.md): CLK_INC_CALC, CLK_PROCESS and the clock's commands. -/

namespace Sys2Proof.Machine

open Sys2Proof

variable {cfg : Config}

/-- `MULT_TABLE[CLK_MULT_IDX]` (R18); an index outside the table reads 1/1, which no run reaches (log entry 8). -/
def multiplier (cfg : Config) (idx : BitVec 8) : Nat × Nat := (cfg.MULT_TABLE[idx.toNat]?).getD (1, 1)

/-- The increment of R54 before its clamp: the exact rational rounded once. Only a positive finite `f` has
one; a frequency that is not positive has none above 0 (log entry 8). -/
def clkIncExact (cfg : Config) (f : F32) (idx : BitVec 8) : Nat :=
  roundNE (cfg.PERIOD * f.units.toNat * (multiplier cfg idx).1) (2 ^ 149 * ((multiplier cfg idx).2 * cfg.SR))

/-- The increment CLK_INC_CALC stores (R54). -/
def clkIncOf (cfg : Config) (f : F32) (idx : BitVec 8) : BitVec (cfg.PHASE_BITS + 1) :=
  let inc := if f.isFinite then clkIncExact cfg f idx else cfg.PERIOD
  BitVec.ofNat _ (min cfg.PERIOD (max 1 inc))

/-- CLK_INC_CALC (R54). -/
def clkIncCalc (c : Clock cfg) : Clock cfg := { c with inc := clkIncOf cfg c.freq c.multIdx }

/-- The sum `CLK_PHASE + CLK_INC` of R55. -/
def clkSum (c : Clock cfg) : Nat := c.phase.toNat + c.inc.toNat

/-- Whether CLK_PROCESS ticks (R55): reaching `PERIOD` exactly counts. -/
def clkTicks (c : Clock cfg) : Bool := decide (cfg.PERIOD ≤ clkSum c)

/-- CLK_PROCESS (R55). -/
def clkProcess (c : Clock cfg) : Clock cfg :=
  { c with phase := BitVec.ofNat _ (if clkTicks c then clkSum c - cfg.PERIOD else clkSum c) }

/-- `CLK_PHASE <- (PERIOD - CLK_INC) mod PERIOD` (R60, R137). -/
def clkPhaseToEnd (c : Clock cfg) : Clock cfg :=
  { c with phase := BitVec.ofNat _ (((cfg.PERIOD : Int) - c.inc.toNat) % cfg.PERIOD).toNat }

/-- Whether a frequency is refused: NaN, a zero or a negative value (R56, R148). -/
def badClockFreq (f : F32) : Bool := f.isNaN || f.le (F32.ofInt 0)

/-- CLK_INIT (R56). -/
def execClkInit (f : F32) (s : State cfg) : Result cfg :=
  if badClockFreq f then .next (s.reject .freq)
  else .next (s.setClk (clkIncCalc
    { s.clk with freq := f, multIdx := BitVec.ofNat 8 cfg.MULT_UNITY, phase := 0 })).accept

/-- CLK_SET_FREQ (R57). -/
def execClkSetFreq (f : F32) (s : State cfg) : Result cfg :=
  if badClockFreq f then .next (s.reject .freq)
  else .next (s.setClk (clkIncCalc { s.clk with freq := f })).accept

/-- CLK_SET_BPM (R58): the quotient `bpm /f 60` is tested and stored. -/
def execClkSetBpm (bpm : F32) (s : State cfg) : Result cfg :=
  let f := bpm.div (F32.ofInt 60)
  if badClockFreq f then .next (s.reject .freq)
  else .next (s.setClk (clkIncCalc { s.clk with freq := f })).accept

/-- CLK_SET_MULT (R59): the index is clamped to the table. -/
def execClkSetMult (k : Int) (s : State cfg) : Result cfg :=
  .next (s.setClk (clkIncCalc
    { s.clk with multIdx := BitVec.ofInt 8 (clampInt k 0 ((cfg.MULT_TABLE.length : Int) - 1)) })).accept

/-- CLK_SET_PHASE_TO_END (R60). -/
def execClkSetPhaseToEnd (s : State cfg) : Result cfg := .next (s.setClk (clkPhaseToEnd s.clk)).accept

/-- CLK_GET_FREQ (R61). -/
def execClkGetFreq (s : State cfg) : Result cfg := .next (s.answer s.clk.freq.bits)

/-- CLK_GET_MULT (R62). -/
def execClkGetMult (s : State cfg) : Result cfg := .next (s.answer (zext32 s.clk.multIdx))

/-- A half of a long clock register (R63, R64): bits 31:0, or the bits above them. -/
def halfOf (h : HalfSel) (v : Nat) : Word :=
  match h with
  | .lo => BitVec.ofNat 32 v
  | .hi => BitVec.ofNat 32 (v / 2 ^ 32)

/-- CLK_GET_PHASE (R63). -/
def execClkGetPhase (h : HalfSel) (s : State cfg) : Result cfg := .next (s.answer (halfOf h s.clk.phase.toNat))

/-- CLK_GET_INC (R64). -/
def execClkGetInc (h : HalfSel) (s : State cfg) : Result cfg := .next (s.answer (halfOf h s.clk.inc.toNat))

end Sys2Proof.Machine
end

