-- ==== Sys2Proof/Machine/Oscillator.lean ====
section
/-! DEFINITION. The oscillator (43_oscillator.md): OSC_RESYNC, OSC_SET_FREQ_INT, BLEP, OSC_PROCESS and the
oscillator's commands. -/

namespace Sys2Proof.Machine

open Sys2Proof

variable {cfg : Config}

/-- `SR_F32 = f32(SR)` (R4). -/
def srF32 (cfg : Config) : F32 := F32.ofInt cfg.SR

/-- `NYQ_F32 = SR_F32 /f 2` (R4). -/
def nyqF32 (cfg : Config) : F32 := (srF32 cfg).div (F32.ofInt 2)

/-- `TWO_PI = f32(2π)` (R4). -/
def twoPi : F32 := ⟨0x40C90FDB⟩

/-- OSC_RESYNC (R96). -/
def oscResync (o : Oscillator cfg) : Oscillator cfg :=
  let phi := twoPi.mul o.phase
  let w := twoPi.mul o.inc
  { o with
    coeff := (F32.ofInt 2).mul (cfg.COS w)
    y1 := cfg.SIN (phi.sub w)
    y2 := cfg.SIN (phi.sub ((F32.ofInt 2).mul w)) }

/-- OSC_SET_FREQ_INT(f) (R97). -/
def oscSetFreqInt (f : F32) (o : Oscillator cfg) : Oscillator cfg :=
  let g := f.clamp (F32.ofInt 0) (nyqF32 cfg)
  oscResync { o with freq := g, inc := g.div (srF32 cfg) }

/-- BLEP(p, dt) (R98). -/
def blep (p dt : F32) : F32 :=
  let one := F32.ofInt 1
  if p.lt dt then
    let t := p.div dt
    ((t.add t).sub (t.mul t)).sub one
  else if (one.sub dt).lt p then
    let t := (p.sub one).div dt
    (((t.mul t).add t).add t).add one
  else F32.ofInt 0

/-- The saw ramp `(2 *f p) -f 1` (R99). -/
def sawRamp (p : F32) : F32 := ((F32.ofInt 2).mul p).sub (F32.ofInt 1)

/-- The triangle `(2 *f fabs(t)) -f 1` of the ramp t (R99). -/
def triangle (p : F32) : F32 := ((F32.ofInt 2).mul (sawRamp p).abs).sub (F32.ofInt 1)

/-- The band-limited sawtooth (R99). -/
def sawtooth (p dt : F32) : F32 := (sawRamp p).sub (blep p dt)

/-- The next sine sample `(OSC_COEFF *f OSC_Y1) -f OSC_Y2` (R99). -/
def sineNext (o : Oscillator cfg) : F32 := (o.coeff.mul o.y1).sub o.y2

/-- The waveform value `v` of OSC_PROCESS, before the amplitude (R99). -/
def oscWave (o : Oscillator cfg) : F32 :=
  if o.mode = 0 then sineNext o
  else if o.mode = 1 then triangle o.phase
  else if o.mode = 2 then sawtooth o.phase o.inc
  else F32.ofInt 0

/-- The sample OSC_PROCESS returns (R99): the wave scaled by the amplitude last. -/
def oscOut (o : Oscillator cfg) : F32 := o.amp.mul (oscWave o)

/-- The phase after one sample (R99): it wraps at 1. -/
def nextPhase (p dt : F32) : F32 :=
  let n := p.add dt
  if (F32.ofInt 1).le n then n.sub (F32.ofInt 1) else n

/-- The registers after OSC_PROCESS (R99): the recurrence advances in sine mode only, the phase always. -/
def oscProcess (o : Oscillator cfg) : Oscillator cfg :=
  if o.mode = 0 then { o with y1 := sineNext o, y2 := o.y1, phase := nextPhase o.phase o.inc }
  else { o with phase := nextPhase o.phase o.inc }

/-- OSC_SET_FREQ (R100). -/
def execOscSetFreq (f : F32) (s : State cfg) : Result cfg :=
  if f.isNaN then .next (s.reject .nan) else .next (s.setOsc (oscSetFreqInt f s.osc)).accept

/-- OSC_SET_AMP (R101). -/
def execOscSetAmp (a : F32) (s : State cfg) : Result cfg :=
  if a.isNaN then .next (s.reject .nan)
  else .next (s.setOsc { s.osc with amp := a.clamp (F32.ofInt 0) (F32.ofInt 1) }).accept

/-- OSC_SET_MODE (R102): any value is stored. -/
def execOscSetMode (m : Word) (s : State cfg) : Result cfg :=
  .next (s.setOsc (oscResync { s.osc with mode := m })).accept

/-- OSC_GET_FREQ (R103). -/
def execOscGetFreq (s : State cfg) : Result cfg := .next (s.answer s.osc.freq.bits)

/-- OSC_GET_AMP (R104). -/
def execOscGetAmp (s : State cfg) : Result cfg := .next (s.answer s.osc.amp.bits)

/-- OSC_GET_MODE (R105). -/
def execOscGetMode (s : State cfg) : Result cfg := .next (s.answer s.osc.mode)

/-- OSC_GET_PHASE (R106). -/
def execOscGetPhase (s : State cfg) : Result cfg := .next (s.answer s.osc.phase.bits)

/-- The sine recurrence register a selector names (R107). -/
def sineReg (o : Oscillator cfg) (r : SineSel) : F32 :=
  match r with
  | .coeff => o.coeff
  | .y1 => o.y1
  | .y2 => o.y2

/-- OSC_GET_SINE_STATE (R107). -/
def execOscGetSineState (r : SineSel) (s : State cfg) : Result cfg := .next (s.answer (sineReg s.osc r).bits)

end Sys2Proof.Machine
end

