-- ==== Sys2Proof/Machine/Envelope.lean ====
section
/-! DEFINITION. The envelopes (45_envelope.md): ENV_TRIGGER_INT, ENV_PROCESS and the envelopes' commands. -/

namespace Sys2Proof.Machine

open Sys2Proof

variable {cfg : Config}

/-- `INV_SR = 1 /f SR_F32` (R4). -/
def invSr (cfg : Config) : F32 := (F32.ofInt 1).div (srF32 cfg)

/-- ENV_TRIGGER_INT (R125): the idle test is on the output. -/
def envTriggerInt (e : Envelope cfg) : Envelope cfg :=
  { e with
    stage := .attack
    timer := if e.out.eqv (F32.ofInt 0) then F32.ofInt 0 else e.out.mul e.attack }

/-- ENV_PROCESS in ATTACK (R126). -/
def envAttack (e : Envelope cfg) : Envelope cfg :=
  let timer := e.timer.add (invSr cfg)
  let out := timer.div e.attack
  if (F32.ofInt 1).le out then { e with stage := .decay, timer := F32.ofInt 0, out := F32.ofInt 1 }
  else { e with timer := timer, out := out }

/-- ENV_PROCESS in DECAY (R126). -/
def envDecay (e : Envelope cfg) : Envelope cfg :=
  let timer := e.timer.add (invSr cfg)
  let out := (F32.ofInt 1).sub (timer.div e.decay)
  if out.le cfg.ENV_EPS then { e with stage := .idle, timer := F32.ofInt 0, out := F32.ofInt 0 }
  else { e with timer := timer, out := out }

/-- ENV_PROCESS (R126); what it returns is `OUT_e` after it. -/
def envProcess (e : Envelope cfg) : Envelope cfg :=
  match e.stage with
  | .idle => e
  | .attack => envAttack e
  | .decay => envDecay e

/-- The range of the stage times (R127, R128). -/
def clampTime (t : F32) : F32 := t.clamp (F32.ofRat 1 1000) (F32.ofInt 10)

/-- ENV_SET_ATTACK (R127). -/
def execEnvSetAttack (e : EnvSel) (t : F32) (s : State cfg) : Result cfg :=
  if t.isNaN then .next (s.reject .nan)
  else .next (s.setEnv e { s.env e with attack := clampTime t }).accept

/-- ENV_SET_DECAY (R128). -/
def execEnvSetDecay (e : EnvSel) (t : F32) (s : State cfg) : Result cfg :=
  if t.isNaN then .next (s.reject .nan)
  else .next (s.setEnv e { s.env e with decay := clampTime t }).accept

/-- ENV_TRIGGER (R129). -/
def execEnvTrigger (e : EnvSel) (s : State cfg) : Result cfg :=
  .next (s.setEnv e (envTriggerInt (s.env e))).accept

/-- ENV_GET_ATTACK (R130). -/
def execEnvGetAttack (e : EnvSel) (s : State cfg) : Result cfg := .next (s.answer (s.env e).attack.bits)

/-- ENV_GET_DECAY (R131). -/
def execEnvGetDecay (e : EnvSel) (s : State cfg) : Result cfg := .next (s.answer (s.env e).decay.bits)

/-- ENV_GET_OUTPUT (R132). -/
def execEnvGetOutput (e : EnvSel) (s : State cfg) : Result cfg := .next (s.answer (s.env e).out.bits)

/-- ENV_GET_STAGE (R133). -/
def execEnvGetStage (e : EnvSel) (s : State cfg) : Result cfg :=
  .next (s.answer (zext32 (stageNumber (s.env e).stage)))

/-- ENV_GET_TIMER (R134). -/
def execEnvGetTimer (e : EnvSel) (s : State cfg) : Result cfg := .next (s.answer (s.env e).timer.bits)

end Sys2Proof.Machine
end

