-- ==== Sys2Proof/Machine/Filter.lean ====
section
/-! DEFINITION. The filter (44_filter.md): COEF_DIRECT, COEF_TABLE with its grids, FILT_RECOMPUTE,
FILT_PROCESS and the filter's commands. -/

namespace Sys2Proof.Machine

open Sys2Proof

variable {cfg : Config}

/-- COEF_DIRECT(f, q) (R109). -/
def coefDirect (cfg : Config) (f q : F32) : Coefs :=
  let one := F32.ofInt 1
  let two := F32.ofInt 2
  let w0 := (twoPi.mul f).div (srF32 cfg)
  let c := cfg.COS w0
  let alpha := (cfg.SIN w0).div (two.mul q)
  let b0 := one.add alpha
  let a0 := ((one.sub c).div two).div b0
  { a0 := a0
    a1 := (one.sub c).div b0
    a2 := a0
    b1 := ((F32.ofInt (-2)).mul c).div b0
    b2 := (one.sub alpha).div b0 }

/-- `GF[i] = to_f32(20 · 1000^(i/(NF-1)))` (R110). -/
def gridF (cfg : Config) (i : Nat) : F32 := rootF32 (cfg.NF - 1) (20 ^ (cfg.NF - 1) * 1000 ^ i) 1

/-- `GQ[j] = to_f32(0.2 · 25^(j/(NQ-1)))` (R110). -/
def gridQ (cfg : Config) (j : Nat) : F32 := rootF32 (cfg.NQ - 1) (25 ^ j) (5 ^ (cfg.NQ - 1))

/-- `FTAB[j][i]` (R21, R110): the cell of Q index `j` and frequency index `i`. -/
def filterTable (cfg : Config) (j i : Nat) : Coefs := coefDirect cfg (gridF cfg i) (gridQ cfg j)

/-- The scan of NEAREST from index `k` on, with `n` candidates before the last one (R110). -/
def nearestFrom (g : Nat → F32) (x : F32) : Nat → Nat → Nat
  | 0, k => k
  | n + 1, k => if x.units * x.units ≤ (g k).units * (g (k + 1)).units then k else nearestFrom g x n (k + 1)

/-- NEAREST(G, x) for a grid of `len` points (R110): the least `k` that is the last index or has
`x·x <= G[k]·G[k+1]`, in exact products. -/
def nearest (g : Nat → F32) (len : Nat) (x : F32) : Nat := nearestFrom g x (len - 1) 0

/-- COEF_TABLE(f, q) (R110). -/
def coefTable (cfg : Config) (f q : F32) : Coefs :=
  filterTable cfg (nearest (gridQ cfg) cfg.NQ q) (nearest (gridF cfg) cfg.NF f)

/-- The coefficients by the realization the configuration names (R111). -/
def coefOf (cfg : Config) (f q : F32) : Coefs :=
  match cfg.FILTER_REALIZATION with
  | .direct => coefDirect cfg f q
  | .table => coefTable cfg f q

/-- The filter's frequency range (R20, R111). -/
def clampFiltFreq (f : F32) : F32 := f.clamp (F32.ofInt 20) (F32.ofInt 20000)

/-- The range of the modulation offset and of its depth (R115, R116). -/
def clampOffset (d : F32) : F32 := d.clamp (F32.ofInt (-20000)) (F32.ofInt 20000)

/-- `f32("0.2")` (R114). -/
def minQ : F32 := F32.ofRat 2 10

/-- FILT_RECOMPUTE (R111). -/
def filtRecompute (u : FilterUnit cfg) : FilterUnit cfg :=
  let eff := clampFiltFreq (u.freq.add u.mod)
  { u with eff := eff, coef := coefOf cfg eff u.q }

/-- The output of FILT_PROCESS (R112): Direct Form I, evaluated left to right. -/
def filtOut (x0 : F32) (u : FilterUnit cfg) : F32 :=
  ((((u.coef.a0.mul x0).add (u.coef.a1.mul u.x1)).add (u.coef.a2.mul u.x2)).sub (u.coef.b1.mul u.y1)).sub
    (u.coef.b2.mul u.y2)

/-- The registers after FILT_PROCESS (R112). -/
def filtProcess (x0 : F32) (u : FilterUnit cfg) : FilterUnit cfg :=
  { u with x2 := u.x1, x1 := x0, y2 := u.y1, y1 := filtOut x0 u }

/-- FILT_SET_FREQ (R113). -/
def execFiltSetFreq (f : F32) (s : State cfg) : Result cfg :=
  if f.isNaN then .next (s.reject .nan)
  else .next (s.setFilt (filtRecompute { s.filt with freq := clampFiltFreq f })).accept

/-- FILT_SET_Q (R114). -/
def execFiltSetQ (q : F32) (s : State cfg) : Result cfg :=
  if q.isNaN then .next (s.reject .nan)
  else .next (s.setFilt (filtRecompute { s.filt with q := q.clamp minQ (F32.ofInt 5) })).accept

/-- FILT_ADD_FREQ (R115): the offset replaces the one before it. -/
def execFiltAddFreq (d : F32) (s : State cfg) : Result cfg :=
  if d.isNaN then .next (s.reject .nan)
  else .next (s.setFilt (filtRecompute { s.filt with mod := clampOffset d })).accept

/-- FILT_SET_ENV_DEPTH (R116): no recompute. -/
def execFiltSetEnvDepth (d : F32) (s : State cfg) : Result cfg :=
  if d.isNaN then .next (s.reject .nan)
  else .next (s.setFilt { s.filt with depth := clampOffset d }).accept

/-- FILT_GET_FREQ (R117). -/
def execFiltGetFreq (s : State cfg) : Result cfg := .next (s.answer s.filt.freq.bits)

/-- FILT_GET_Q (R118). -/
def execFiltGetQ (s : State cfg) : Result cfg := .next (s.answer s.filt.q.bits)

/-- FILT_GET_MOD (R119). -/
def execFiltGetMod (s : State cfg) : Result cfg := .next (s.answer s.filt.mod.bits)

/-- FILT_GET_EFF_FREQ (R120). -/
def execFiltGetEffFreq (s : State cfg) : Result cfg := .next (s.answer s.filt.eff.bits)

/-- FILT_GET_ENV_DEPTH (R121). -/
def execFiltGetEnvDepth (s : State cfg) : Result cfg := .next (s.answer s.filt.depth.bits)

/-- The coefficient a selector names (R122). -/
def coefReg (c : Coefs) (r : CoefSel) : F32 :=
  match r with
  | .a0 => c.a0
  | .a1 => c.a1
  | .a2 => c.a2
  | .b1 => c.b1
  | .b2 => c.b2

/-- FILT_GET_COEF (R122). -/
def execFiltGetCoef (r : CoefSel) (s : State cfg) : Result cfg := .next (s.answer (coefReg s.filt.coef r).bits)

/-- The history register a selector names (R123). -/
def histReg (u : FilterUnit cfg) (r : HistSel) : F32 :=
  match r with
  | .x1 => u.x1
  | .x2 => u.x2
  | .y1 => u.y1
  | .y2 => u.y2

/-- FILT_GET_STATE (R123). -/
def execFiltGetState (r : HistSel) (s : State cfg) : Result cfg := .next (s.answer (histReg s.filt r).bits)

end Sys2Proof.Machine
end

