-- ==== Sys2Proof/Machine/Quantizer.lean ====
section
/-! DEFINITION. The quantizer (42_quantizer.md): QUANTIZE, NOTE_TO_HZ, NOTE_TO_NAME and the quantizer's
commands. -/

namespace Sys2Proof.Machine

open Sys2Proof

variable {cfg : Config}

/-- The row `SCALE_TABLE[SCALE]` (R17); an index outside the table reads no degrees, which no run reaches
(log entry 8). -/
def scaleRow (q : Quantizer cfg) : List Nat := (cfg.SCALE_TABLE[q.scale.toNat]?).getD []

/-- The degree `(n - KEY) mod 12`, Euclidean (R83). -/
def degreeOf (q : Quantizer cfg) (n : Int) : Nat := ((n - q.key.toNat) % 12).toNat

/-- IN_SCALE(n) (R83). -/
def inScale (q : Quantizer cfg) (n : Int) : Bool := (scaleRow q).contains (degreeOf q n)

/-- The upward scan of R84, at most the given number of steps. -/
def quantizeFrom (q : Quantizer cfg) : Nat → Int → Int
  | 0, c => c
  | k + 1, c => if inScale q c then c else quantizeFrom q k (c + 1)

/-- QUANTIZE(n) (R84). -/
def quantize (q : Quantizer cfg) (n : Int) : Int := quantizeFrom q 12 n

/-- NOTE_TO_HZ(m, 0) (R85): `ROOT_HZ *f EXP2(to_f32(m - ROOT_NOTE) /f 12)`. -/
def noteToHz (cfg : Config) (m : Int) : F32 :=
  cfg.ROOT_HZ.mul (cfg.EXP2 ((F32.ofInt (m - cfg.ROOT_NOTE)).div (F32.ofInt 12)))

/-- The names of the twelve notes as packed ASCII words, C first (R86). -/
def noteNames : List Word :=
  [0x00000043, 0x00002343, 0x00000044, 0x00002344, 0x00000045, 0x00000046,
   0x00002346, 0x00000047, 0x00002347, 0x00000041, 0x00002341, 0x00000042]

/-- NOTE_TO_NAME(m) (R86). -/
def noteToName (m : Int) : Word := (noteNames[(m % 12).toNat]?).getD 0

/-- Whether a note operand is outside `NOTE_MIN .. NOTE_MAX` (R71, R89, R90, R91). -/
def badNote (cfg : Config) (n : Int) : Bool := decide (n < cfg.NOTE_MIN) || decide (cfg.NOTE_MAX < n)

/-- Q_SET_KEY (R87). -/
def execQSetKey (k : Int) (s : State cfg) : Result cfg :=
  .next (s.setQuant { s.quant with key := BitVec.ofInt 4 (clampInt k 0 11) }).accept

/-- Q_SET_SCALE (R88). -/
def execQSetScale (k : Int) (s : State cfg) : Result cfg :=
  .next (s.setQuant { s.quant with
    scale := BitVec.ofInt 8 (clampInt k 0 ((cfg.NUM_SCALES : Int) - 1)) }).accept

/-- Q_QUANTIZE (R89). -/
def execQQuantize (n : Int) (s : State cfg) : Result cfg :=
  if badNote cfg n then .next (s.reject .noteRange)
  else .next (s.answer (patternOfInt (quantize s.quant n)))

/-- Q_NOTE_TO_HZ (R90), of the note itself or of the quantized note (R85). -/
def execQNoteToHz (quantized : Bool) (n : Int) (s : State cfg) : Result cfg :=
  if badNote cfg n then .next (s.reject .noteRange)
  else .next (s.answer (noteToHz cfg (if quantized then quantize s.quant n else n)).bits)

/-- Q_NOTE_TO_NAME (R91). -/
def execQNoteToName (n : Int) (s : State cfg) : Result cfg :=
  if badNote cfg n then .next (s.reject .noteRange)
  else .next (s.answer (noteToName n))

/-- Q_GET_KEY (R92). -/
def execQGetKey (s : State cfg) : Result cfg := .next (s.answer (zext32 s.quant.key))

/-- Q_GET_SCALE (R93). -/
def execQGetScale (s : State cfg) : Result cfg := .next (s.answer (zext32 s.quant.scale))

end Sys2Proof.Machine
end

