-- ==== Sys2Proof/Machine/Sequencer.lean ====
section
/-! DEFINITION. The trigger and pitch sequencers (41_sequencers.md): SEQ_ADVANCE, PITCH_FREQ and the
sequencers' commands. -/

namespace Sys2Proof.Machine

open Sys2Proof

variable {cfg : Config}

/-- `(CUR + 1) mod LEN` (R66). -/
def nextStep (cur : BitVec 16) (len : BitVec 17) : BitVec 16 := BitVec.ofNat 16 ((cur.toNat + 1) % len.toNat)

/-- SEQ_ADVANCE of a trigger sequencer (R66). -/
def advanceTrig (k : TrigTrack cfg) : TrigTrack cfg := { k with cur := nextStep k.cur k.len }

/-- SEQ_ADVANCE of the pitch sequencer (R66). -/
def advancePitch (k : PitchTrack cfg) : PitchTrack cfg := { k with cur := nextStep k.cur k.len }

/-- `NOTE[CUR_PITCH] + TRANSPOSE` (R67, R80), an exact sum. -/
def currentNote (k : PitchTrack cfg) : Int := k.noteAt k.cur.toNat + k.transpose.toInt

/-- PITCH_FREQ() (R67): not quantized again. -/
def pitchFreq (k : PitchTrack cfg) : F32 := noteToHz cfg (currentNote k)

/-- Whether a step index is at or above `LEN_s` (R69, R70, R71, R75, R77). -/
def badIndex (i : Nat) (len : BitVec 17) : Bool := decide (len.toNat ≤ i)

/-- A trigger sequencer after SEQ_INIT (R68): all `N_MAX` steps inactive. -/
def initTrig (n : Nat) (k : TrigTrack cfg) : TrigTrack cfg :=
  { k with len := BitVec.ofNat 17 n, cur := 0, active := Vector.replicate cfg.N_MAX false }

/-- The pitch sequencer after SEQ_INIT (R68): all `N_MAX` steps hold the quantized default note. -/
def initPitch (q : Quantizer cfg) (n : Nat) (k : PitchTrack cfg) : PitchTrack cfg :=
  { k with
    len := BitVec.ofNat 17 n
    cur := 0
    note := Vector.replicate cfg.N_MAX (BitVec.ofInt 16 (quantize q cfg.DEFAULT_NOTE)) }

/-- SEQ_INIT (R68). -/
def execSeqInit (q : SeqSel) (n : Nat) (s : State cfg) : Result cfg :=
  if n < 1 ∨ cfg.N_MAX < n then .next (s.reject .length)
  else
    match q with
    | .trig0 => .next (s.setTrig0 (initTrig n s.trig0)).accept
    | .trig1 => .next (s.setTrig1 (initTrig n s.trig1)).accept
    | .pitch => .next (s.setPitch (initPitch s.quant n s.pitch)).accept

/-- SEQ_SET_CURRENT (R69). -/
def execSeqSetCurrent (q : SeqSel) (i : Nat) (s : State cfg) : Result cfg :=
  if badIndex i (s.seqLen q) then .next (s.reject .index) else .next (s.setCur q i).accept

/-- TRIG_TOGGLE (R70). -/
def execTrigToggle (t : TrigSel) (i : Nat) (s : State cfg) : Result cfg :=
  if badIndex i (s.trig t).len then .next (s.reject .index)
  else .next (s.setTrig t ((s.trig t).setStep i (!(s.trig t).stepActive i))).accept

/-- PITCH_SET_NOTE (R71): the index is checked before the note. -/
def execPitchSetNote (i : Nat) (n : Int) (s : State cfg) : Result cfg :=
  if badIndex i s.pitch.len then .next (s.reject .index)
  else if badNote cfg n then .next (s.reject .noteRange)
  else .next (s.setPitch (s.pitch.setNote i (quantize s.quant n))).accept

/-- PITCH_SET_TRANSPOSE (R72). -/
def execPitchSetTranspose (d : Int) (s : State cfg) : Result cfg :=
  .next (s.setPitch { s.pitch with
    transpose := BitVec.ofInt 8 (clampInt d cfg.TRANSPOSE_MIN cfg.TRANSPOSE_MAX) }).accept

/-- SEQ_GET_CURRENT (R73). -/
def execSeqGetCurrent (q : SeqSel) (s : State cfg) : Result cfg := .next (s.answer (zext32 (s.seqCur q)))

/-- SEQ_GET_LENGTH (R74). -/
def execSeqGetLength (q : SeqSel) (s : State cfg) : Result cfg := .next (s.answer (zext32 (s.seqLen q)))

/-- TRIG_GET_STEP (R75). -/
def execTrigGetStep (t : TrigSel) (i : Nat) (s : State cfg) : Result cfg :=
  if badIndex i (s.trig t).len then .next (s.reject .index)
  else .next (s.answer (zextBool ((s.trig t).stepActive i)))

/-- TRIG_GET_CURRENT_ACTIVE (R76). -/
def execTrigGetCurrentActive (t : TrigSel) (s : State cfg) : Result cfg :=
  .next (s.answer (zextBool (s.trig t).currentActive))

/-- PITCH_GET_NOTE (R77): the stored note, without the transpose. -/
def execPitchGetNote (i : Nat) (s : State cfg) : Result cfg :=
  if badIndex i s.pitch.len then .next (s.reject .index)
  else .next (s.answer (patternOfInt (s.pitch.noteAt i)))

/-- PITCH_GET_TRANSPOSE (R78). -/
def execPitchGetTranspose (s : State cfg) : Result cfg := .next (s.answer (patternOfInt s.pitch.transpose.toInt))

/-- PITCH_GET_CURRENT_FREQ (R79). -/
def execPitchGetCurrentFreq (s : State cfg) : Result cfg := .next (s.answer (pitchFreq s.pitch).bits)

/-- PITCH_GET_CURRENT_NAME (R80). -/
def execPitchGetCurrentName (s : State cfg) : Result cfg := .next (s.answer (noteToName (currentNote s.pitch)))

end Sys2Proof.Machine
end

