-- ==== Sys2Proof/Machine/Engine.lean ====
section
/-! DEFINITION. The engine (46_engine.md): SAMPLE_STEP in its parts, the transport commands, the engine's
queries and NOP. -/

namespace Sys2Proof.Machine

open Sys2Proof

variable {cfg : Config}

/-- A tick's advance of the three sequencers (R136). -/
def advanceAll (s : State cfg) : State cfg :=
  ((s.setTrig0 (advanceTrig s.trig0)).setTrig1 (advanceTrig s.trig1)).setPitch (advancePitch s.pitch)

/-- The cross-track reset (R136): TRIG1's current step, when active, puts TRIG0 and PITCH on step 0. -/
def crossReset (s : State cfg) : State cfg :=
  if s.trig1.currentActive then
    (s.setTrig0 { s.trig0 with cur := 0 }).setPitch { s.pitch with cur := 0 }
  else s

/-- The playing of the rhythmic track's step (R136): both envelopes trigger and the pitch is pushed into the
oscillator. -/
def triggerVoice (s : State cfg) : State cfg :=
  ((s.setEnv0 (envTriggerInt s.env0)).setEnv1 (envTriggerInt s.env1)).setOsc
    (oscSetFreqInt (pitchFreq s.pitch) s.osc)

/-- The sequencing of a sample step whose clock ticked (R136), before the trigger test. -/
def tickTracks (s : State cfg) : State cfg := crossReset (advanceAll s)

/-- The synthesis of a sample step (R136): envelopes, filter modulation and recompute, oscillator, filter,
output and flags. -/
def synthesize (tick trig : Bool) (s : State cfg) : State cfg :=
  let env0 := envProcess s.env0
  let env1 := envProcess s.env1
  let filt := filtRecompute { s.filt with mod := env1.out.mul s.filt.depth }
  let x0 := env0.out.mul (oscOut s.osc)
  let y := filtOut x0 filt
  { s with
    env0 := env0
    env1 := env1
    osc := oscProcess s.osc
    filt := filtProcess x0 filt
    eng := { s.eng with lastTick := tick, lastTrig := trig, outL := y, outR := y } }

/-- The registers after a stopped sample step (R136): zero output, no tick, everything else frozen. -/
def stoppedSample (s : State cfg) : State cfg :=
  { s with eng := { s.eng with lastTick := false, lastTrig := false, outL := F32.ofInt 0, outR := F32.ofInt 0 } }

/-- The registers after a playing sample step (R136). -/
def playingSample (s : State cfg) : State cfg :=
  let tick := clkTicks s.clk
  let s1 := s.setClk (clkProcess s.clk)
  let s2 := if tick then tickTracks s1 else s1
  let trig := tick && s2.trig0.currentActive
  synthesize tick trig (if trig then triggerVoice s2 else s2)

/-- SAMPLE_STEP (R136), with the output pair it returns on the audio channel (R27). -/
def sampleStep (s : State cfg) : State cfg :=
  let t := if s.eng.play then playingSample s else stoppedSample s
  t.deliver { left := t.eng.outL, right := t.eng.outR }

/-- `CUR_s <- LEN_s - 1` (R137). -/
def lastStep (len : BitVec 17) : BitVec 16 := BitVec.ofNat 16 (len.toNat - 1)

/-- TRANSPORT_START (R137). -/
def execTransportStart (s : State cfg) : Result cfg :=
  .next (State.accept { s with
    trig0 := { s.trig0 with cur := lastStep s.trig0.len }
    trig1 := { s.trig1 with cur := lastStep s.trig1.len }
    pitch := { s.pitch with cur := lastStep s.pitch.len }
    clk := clkPhaseToEnd s.clk
    eng := { s.eng with play := true } })

/-- TRANSPORT_STOP (R138). -/
def execTransportStop (s : State cfg) : Result cfg := .next (s.setEng { s.eng with play := false }).accept

/-- NOP (R139). -/
def execNop (s : State cfg) : Result cfg := .next s.accept

/-- ENG_GET_ID (R140): "PAC1". -/
def execEngGetId (s : State cfg) : Result cfg := .next (s.answer 0x50414331)

/-- ENG_GET_STATUS (R141). -/
def execEngGetStatus (s : State cfg) : Result cfg := .next (s.answer (statusWord s.eng))

/-- ENG_GET_ERR_CODE (R142). -/
def execEngGetErrCode (s : State cfg) : Result cfg := .next (s.answer (zext32 s.eng.errCode))

/-- The output register a channel names (R143). -/
def outReg (g : Engine) (c : ChannelSel) : F32 :=
  match c with
  | .left => g.outL
  | .right => g.outR

/-- ENG_GET_OUT (R143). -/
def execEngGetOut (c : ChannelSel) (s : State cfg) : Result cfg := .next (s.answer (outReg s.eng c).bits)

end Sys2Proof.Machine
end

