-- ==== Sys2Proof/Machine/Dispatch.lean ====
section
/-! DEFINITION. One arm per constructor of `Instr`, each one call of the instruction's meaning. -/

namespace Sys2Proof.Machine

open Sys2Proof

def exec (i : Instr) (s : State) : Host.Outcome State Fault Refusal :=
  match i with
  | .nop => Sys2Proof.Machine.execNop s
  | .engGetId => Sys2Proof.Machine.execEngGetId s
  | .engGetStatus => Sys2Proof.Machine.execEngGetStatus s
  | .engGetErrCode => Sys2Proof.Machine.execEngGetErrCode s
  | .transportStart => Sys2Proof.Machine.execTransportStart s
  | .transportStop => Sys2Proof.Machine.execTransportStop s
  | .engGetOut c => Sys2Proof.Machine.execEngGetOut c s
  | .clkInit f => Sys2Proof.Machine.execClkInit f s
  | .clkSetFreq f => Sys2Proof.Machine.execClkSetFreq f s
  | .clkSetBpm bpm => Sys2Proof.Machine.execClkSetBpm bpm s
  | .clkSetMult k => Sys2Proof.Machine.execClkSetMult k s
  | .clkSetPhaseToEnd => Sys2Proof.Machine.execClkSetPhaseToEnd s
  | .clkGetFreq => Sys2Proof.Machine.execClkGetFreq s
  | .clkGetMult => Sys2Proof.Machine.execClkGetMult s
  | .clkGetPhase h => Sys2Proof.Machine.execClkGetPhase h s
  | .clkGetInc h => Sys2Proof.Machine.execClkGetInc h s
  | .seqInit q n => Sys2Proof.Machine.execSeqInit q n s
  | .seqSetCurrent q idx => Sys2Proof.Machine.execSeqSetCurrent q idx s
  | .trigToggle t idx => Sys2Proof.Machine.execTrigToggle t idx s
  | .pitchSetNote idx n => Sys2Proof.Machine.execPitchSetNote idx n s
  | .pitchSetTranspose d => Sys2Proof.Machine.execPitchSetTranspose d s
  | .seqGetCurrent q => Sys2Proof.Machine.execSeqGetCurrent q s
  | .seqGetLength q => Sys2Proof.Machine.execSeqGetLength q s
  | .trigGetStep t idx => Sys2Proof.Machine.execTrigGetStep t idx s
  | .trigGetCurrentActive t => Sys2Proof.Machine.execTrigGetCurrentActive t s
  | .pitchGetNote idx => Sys2Proof.Machine.execPitchGetNote idx s
  | .pitchGetTranspose => Sys2Proof.Machine.execPitchGetTranspose s
  | .pitchGetCurrentFreq => Sys2Proof.Machine.execPitchGetCurrentFreq s
  | .pitchGetCurrentName => Sys2Proof.Machine.execPitchGetCurrentName s
  | .qSetKey k => Sys2Proof.Machine.execQSetKey k s
  | .qSetScale k => Sys2Proof.Machine.execQSetScale k s
  | .qQuantize n => Sys2Proof.Machine.execQQuantize n s
  | .qNoteToHz quantized n => Sys2Proof.Machine.execQNoteToHz quantized n s
  | .qNoteToName n => Sys2Proof.Machine.execQNoteToName n s
  | .qGetKey => Sys2Proof.Machine.execQGetKey s
  | .qGetScale => Sys2Proof.Machine.execQGetScale s
  | .oscSetFreq f => Sys2Proof.Machine.execOscSetFreq f s
  | .oscSetAmp a => Sys2Proof.Machine.execOscSetAmp a s
  | .oscSetMode m => Sys2Proof.Machine.execOscSetMode m s
  | .oscGetFreq => Sys2Proof.Machine.execOscGetFreq s
  | .oscGetAmp => Sys2Proof.Machine.execOscGetAmp s
  | .oscGetMode => Sys2Proof.Machine.execOscGetMode s
  | .oscGetPhase => Sys2Proof.Machine.execOscGetPhase s
  | .oscGetSineState r => Sys2Proof.Machine.execOscGetSineState r s
  | .filtSetFreq f => Sys2Proof.Machine.execFiltSetFreq f s
  | .filtSetQ q => Sys2Proof.Machine.execFiltSetQ q s
  | .filtAddFreq d => Sys2Proof.Machine.execFiltAddFreq d s
  | .filtSetEnvDepth d => Sys2Proof.Machine.execFiltSetEnvDepth d s
  | .filtGetFreq => Sys2Proof.Machine.execFiltGetFreq s
  | .filtGetQ => Sys2Proof.Machine.execFiltGetQ s
  | .filtGetMod => Sys2Proof.Machine.execFiltGetMod s
  | .filtGetEffFreq => Sys2Proof.Machine.execFiltGetEffFreq s
  | .filtGetEnvDepth => Sys2Proof.Machine.execFiltGetEnvDepth s
  | .filtGetCoef r => Sys2Proof.Machine.execFiltGetCoef r s
  | .filtGetState r => Sys2Proof.Machine.execFiltGetState r s
  | .envSetAttack e t => Sys2Proof.Machine.execEnvSetAttack e t s
  | .envSetDecay e t => Sys2Proof.Machine.execEnvSetDecay e t s
  | .envTrigger e => Sys2Proof.Machine.execEnvTrigger e s
  | .envGetAttack e => Sys2Proof.Machine.execEnvGetAttack e s
  | .envGetDecay e => Sys2Proof.Machine.execEnvGetDecay e s
  | .envGetOutput e => Sys2Proof.Machine.execEnvGetOutput e s
  | .envGetStage e => Sys2Proof.Machine.execEnvGetStage e s
  | .envGetTimer e => Sys2Proof.Machine.execEnvGetTimer e s

end Sys2Proof.Machine
end

