-- ==== Sys2Proof/Machine/Reset.lean ====
section
/-! DEFINITION. Reset (R160) in every configuration: each register takes the reset value of its table in
10_state.md, a derived register what its rule gives there. The reference configuration's values stand in
Machine/State.lean, written out. -/

namespace Sys2Proof.Machine

open Sys2Proof

/-- The clock at reset: 2.0 Hz, multiplier 1/1, and CLK_INC by CLK_INC_CALC (R12, R160). -/
def Clock.resetIn (cfg : Config) : Clock cfg :=
  clkIncCalc { freq := ⟨0x40000000⟩, multIdx := BitVec.ofNat 8 cfg.MULT_UNITY, phase := 0, inc := 0 }

/-- The quantizer at reset (R16). -/
def Quantizer.resetIn (cfg : Config) : Quantizer cfg := { key := 0, scale := 0 }

/-- The pitch sequencer at reset: every element holds the quantized default note (R14, R15). -/
def PitchTrack.resetIn (cfg : Config) : PitchTrack cfg :=
  { len := 8, cur := 0, transpose := 0,
    note := Vector.replicate cfg.N_MAX (BitVec.ofInt 16 (quantize (Quantizer.resetIn cfg) cfg.DEFAULT_NOTE)) }

/-- The oscillator at reset: 440.0 Hz, OSC_INC by division, the sine recurrence by OSC_RESYNC (R19, R160). -/
def Oscillator.resetIn (cfg : Config) : Oscillator cfg :=
  let freq : F32 := ⟨0x43DC0000⟩
  oscResync
    { freq := freq, inc := freq.div (srF32 cfg), amp := ⟨0x3F800000⟩, mode := 0, phase := zeroF32,
      coeff := zeroF32, y1 := zeroF32, y2 := zeroF32 }

/-- The filter at reset: 20000.0 Hz, Q `f32("0.70710678")`, FILT_EFF and the coefficients by FILT_RECOMPUTE (R20,
R160). -/
def FilterUnit.resetIn (cfg : Config) : FilterUnit cfg :=
  filtRecompute
    { freq := ⟨0x469C4000⟩, q := ⟨0x3F3504F3⟩, mod := zeroF32, depth := zeroF32, eff := zeroF32,
      coef := { a0 := zeroF32, a1 := zeroF32, a2 := zeroF32, b1 := zeroF32, b2 := zeroF32 },
      x1 := zeroF32, x2 := zeroF32, y1 := zeroF32, y2 := zeroF32 }

/-- The machine of the configuration `cfg` right after reset (R160), its channels empty (log entry 3). -/
def State.resetIn (cfg : Config) : State cfg where
  clk := Clock.resetIn cfg
  trig0 := TrigTrack.reset
  trig1 := TrigTrack.reset
  pitch := PitchTrack.resetIn cfg
  quant := Quantizer.resetIn cfg
  osc := Oscillator.resetIn cfg
  filt := FilterUnit.resetIn cfg
  env0 := Envelope.reset
  env1 := Envelope.reset
  eng := Engine.reset
  inputs := []
  responses := []
  audioOut := []

/-- The reset event (R160): every register takes its reset value; the channels keep what the agents have
issued and got, for a command applied before the reset keeps its response (log entry 3). -/
def State.resetEvent {cfg : Config} (s : State cfg) : State cfg :=
  { State.resetIn cfg with inputs := s.inputs, responses := s.responses, audioOut := s.audioOut }

end Sys2Proof.Machine
end

