-- ==== Sys2Proof/Machine/Command.lean ====
section
/-! DEFINITION. Performing an instruction in every configuration (R4), and what one event of an agent does to the
machine (R36): a command is decoded and performed or rejected (R47), a sample request runs SAMPLE_STEP (R136), a
reset applies R160. -/

namespace Sys2Proof.Machine

open Sys2Proof

variable {cfg : Config}

/-- Perform one instruction on a machine of any configuration (R4): the meanings that `exec` calls on the reference
one. -/
def execIn (i : Instr) (s : State cfg) : Result cfg :=
  match i with
  | .nop => execNop s
  | .engGetId => execEngGetId s
  | .engGetStatus => execEngGetStatus s
  | .engGetErrCode => execEngGetErrCode s
  | .transportStart => execTransportStart s
  | .transportStop => execTransportStop s
  | .engGetOut c => execEngGetOut c s
  | .clkInit f => execClkInit f s
  | .clkSetFreq f => execClkSetFreq f s
  | .clkSetBpm bpm => execClkSetBpm bpm s
  | .clkSetMult k => execClkSetMult k s
  | .clkSetPhaseToEnd => execClkSetPhaseToEnd s
  | .clkGetFreq => execClkGetFreq s
  | .clkGetMult => execClkGetMult s
  | .clkGetPhase h => execClkGetPhase h s
  | .clkGetInc h => execClkGetInc h s
  | .seqInit q n => execSeqInit q n s
  | .seqSetCurrent q idx => execSeqSetCurrent q idx s
  | .trigToggle t idx => execTrigToggle t idx s
  | .pitchSetNote idx n => execPitchSetNote idx n s
  | .pitchSetTranspose d => execPitchSetTranspose d s
  | .seqGetCurrent q => execSeqGetCurrent q s
  | .seqGetLength q => execSeqGetLength q s
  | .trigGetStep t idx => execTrigGetStep t idx s
  | .trigGetCurrentActive t => execTrigGetCurrentActive t s
  | .pitchGetNote idx => execPitchGetNote idx s
  | .pitchGetTranspose => execPitchGetTranspose s
  | .pitchGetCurrentFreq => execPitchGetCurrentFreq s
  | .pitchGetCurrentName => execPitchGetCurrentName s
  | .qSetKey k => execQSetKey k s
  | .qSetScale k => execQSetScale k s
  | .qQuantize n => execQQuantize n s
  | .qNoteToHz quantized n => execQNoteToHz quantized n s
  | .qNoteToName n => execQNoteToName n s
  | .qGetKey => execQGetKey s
  | .qGetScale => execQGetScale s
  | .oscSetFreq f => execOscSetFreq f s
  | .oscSetAmp a => execOscSetAmp a s
  | .oscSetMode m => execOscSetMode m s
  | .oscGetFreq => execOscGetFreq s
  | .oscGetAmp => execOscGetAmp s
  | .oscGetMode => execOscGetMode s
  | .oscGetPhase => execOscGetPhase s
  | .oscGetSineState r => execOscGetSineState r s
  | .filtSetFreq f => execFiltSetFreq f s
  | .filtSetQ q => execFiltSetQ q s
  | .filtAddFreq d => execFiltAddFreq d s
  | .filtSetEnvDepth d => execFiltSetEnvDepth d s
  | .filtGetFreq => execFiltGetFreq s
  | .filtGetQ => execFiltGetQ s
  | .filtGetMod => execFiltGetMod s
  | .filtGetEffFreq => execFiltGetEffFreq s
  | .filtGetEnvDepth => execFiltGetEnvDepth s
  | .filtGetCoef r => execFiltGetCoef r s
  | .filtGetState r => execFiltGetState r s
  | .envSetAttack e t => execEnvSetAttack e t s
  | .envSetDecay e t => execEnvSetDecay e t s
  | .envTrigger e => execEnvTrigger e s
  | .envGetAttack e => execEnvGetAttack e s
  | .envGetDecay e => execEnvGetDecay e s
  | .envGetOutput e => execEnvGetOutput e s
  | .envGetStage e => execEnvGetStage e s
  | .envGetTimer e => execEnvGetTimer e s

/-- Apply one host command (R47): reject what does not decode, perform what does by `run`. -/
def applyCommand (run : Instr → State cfg → Result cfg) (c : Command) (s : State cfg) : Result cfg :=
  match decode c with
  | .rejected e => .next (s.reject e)
  | .ok i => run i s

/-- Apply one event (R36), a command's instruction by `run`. -/
def applyEvent (run : Instr → State cfg → Result cfg) (e : Event) (s : State cfg) : Result cfg :=
  match e with
  | .command c => applyCommand run c s
  | .sample => .next (sampleStep s)
  | .reset => .next s.resetEvent

/-- Apply the next event of the merge of R37 as one atomic step (R36); with no event issued nothing happens (log
entry 2). -/
def applyNext (run : Instr → State cfg → Result cfg) (s : State cfg) : Result cfg :=
  match s.inputs with
  | [] => .next s
  | e :: rest => applyEvent run e (s.setInputs rest)

end Sys2Proof.Machine
end

