-- ==== Sys2Proof/Machine/Step.lean ====
section
/-! DEFINITION. One step of this hardware, and of the machine in any configuration (R4): the next event of the merge
of R37 is applied as one atomic step (R36). -/

namespace Sys2Proof.Machine

open Sys2Proof

/-- One step of the machine. -/
def step (s : State) : Host.Outcome State Fault Refusal := applyNext exec s

/-- One step of a machine of any configuration (R4). -/
def stepIn {cfg : Config} (s : State cfg) : Result cfg := applyNext execIn s

/-- `s` with the host's next event being the command whose bits are `w` (log entry 1). -/
def State.withFetchWord (s : State) (nbits w : Nat) : State :=
  s.setInputs (.command (commandOfBits nbits w) :: s.inputs)

/-- `s` with one audio block's sample requests issued next (R29); commands may still be put between them. -/
def State.withAudioBlock {cfg : Config} (s : State cfg) : State cfg :=
  s.setInputs (List.replicate cfg.BLOCK_SIZE .sample ++ s.inputs)

end Sys2Proof.Machine
end

