-- ==== Sys2Proof/Safety.lean ====
section
/-! DEFINITION. The terms in which claims about the machine are made: the exact value of a binary32 pattern
and what it is to be correctly rounded (R7), the opcode map of R48 as rows of match and mask, which commands
are queries (R48), the legal values of 10_state.md as three invariants, and what the internal operations of the
voice leave (R96 to R99, R109, R111, R112, R125, R126, R136), spelled out from their rules. -/

namespace Sys2Proof

/-- The exact value of a finite binary32 pattern, from its fields (R5). -/
def F32.value (a : F32) : ℚ :=
  let e := (a.bits.extractLsb' 23 8).toNat
  let f := (a.bits.extractLsb' 0 23).toNat
  let m : ℚ := if e = 0 then (f : ℚ) * 2 ^ (-149 : ℤ) else ((2 ^ 23 + f : ℕ) : ℚ) * 2 ^ ((e : ℤ) - 150)
  if a.bits.getLsbD 31 then -m else m

/-- The least magnitude that rounds to infinity: halfway between the greatest finite value and 2^128 (R7). -/
def overflowBound : ℚ := (2 ^ 25 - 1) * 2 ^ 103

/-- `x` is the exact `r` rounded once to binary32, to nearest with ties to even (R7): below the overflow
bound no finite value is nearer, and where another finite value is as near, `x` is the even one; from there
on an infinity; and a nonzero `r` gives its sign to `x`. -/
def IsRounded (r : ℚ) (x : F32) : Prop :=
  (if |r| < overflowBound then
      x.isFinite = true ∧
      (∀ y : F32, y.isFinite = true → |x.value - r| ≤ |y.value - r|) ∧
      (∀ y : F32, y.isFinite = true → y.value ≠ x.value → |y.value - r| = |x.value - r| →
        x.bits.getLsbD 0 = false)
    else x.isInf = true) ∧
  (r ≠ 0 → (x.bits.getLsbD 31 = true ↔ r < 0))

/-- `n` is `round_ne(r)` (R6): the nearest integer, and the even one of two as near. -/
def IsNearestEven (r : ℚ) (n : ℤ) : Prop := |r - n| ≤ 1 / 2 ∧ (|r - n| = 1 / 2 → Even n)

/-- The infinity of the given sign (R5). -/
def F32.infinity (negative : Bool) : F32 := if negative then ⟨0xFF800000⟩ else ⟨0x7F800000⟩

/-- The zero of the given sign (R5). -/
def F32.zero (negative : Bool) : F32 := if negative then ⟨0x80000000⟩ else ⟨0x00000000⟩

/-- Whether the sign bit, bit 31, is set (R5). -/
def F32.isNegative (a : F32) : Bool := a.bits.getLsbD 31

/-- A positive clock frequency (R12): +inf, or a finite value above 0. -/
def IsClockFreq (f : F32) : Prop := f.bits = 0x7F800000 ∨ (f.isFinite = true ∧ 0 < f.value)

/-- `inc` is the increment R54 gives for the frequency `f` and the multiplier of index `k`, with `PERIOD` 2^48 and
`SR` 48000 (R4). -/
def IsClockInc (f : F32) (k : Nat) (inc : Nat) : Prop :=
  if f.bits = 0x7F800000 then inc = 2 ^ 48
  else ∃ (num den : Nat) (n : ℤ), referenceMultipliers[k]? = some (num, den) ∧
    IsNearestEven ((2 ^ 48 : ℚ) * f.value * num / (den * 48000)) n ∧ (inc : ℤ) = min (2 ^ 48) (max 1 n)

/-- What R4 and the registers' types (R12, R14, R15, R17, R18) ask of the parameters: the sample rate above 40000,
the unity index, tables that a register can index, rows of twelve degrees of which one is 0, notes and offsets that
fit their registers, and grids of two points at least. -/
structure Config.Legal (cfg : Config) : Prop where
  sampleRate : 40000 < cfg.SR
  steps : 1 ≤ cfg.N_MAX ∧ cfg.N_MAX ≤ 65536
  unity : cfg.MULT_TABLE[cfg.MULT_UNITY]? = some (1, 1)
  multipliers : cfg.MULT_TABLE.length ≤ 256 ∧ ∀ r ∈ cfg.MULT_TABLE, 0 < r.1 ∧ 0 < r.2
  scales : cfg.SCALE_TABLE.length = cfg.NUM_SCALES ∧ 1 ≤ cfg.NUM_SCALES ∧ cfg.NUM_SCALES ≤ 256
  degrees : ∀ row ∈ cfg.SCALE_TABLE, row.length = 12 ∧ 0 ∈ row ∧ ∀ d ∈ row, d < 12
  notes : -(2 ^ 15) ≤ cfg.NOTE_MIN ∧ cfg.NOTE_MAX + 11 < 2 ^ 15
  defaultNote : cfg.NOTE_MIN ≤ cfg.DEFAULT_NOTE ∧ cfg.DEFAULT_NOTE ≤ cfg.NOTE_MAX
  transpose : -128 ≤ cfg.TRANSPOSE_MIN ∧ cfg.TRANSPOSE_MIN ≤ 0 ∧ 0 ≤ cfg.TRANSPOSE_MAX ∧ cfg.TRANSPOSE_MAX ≤ 127
  grid : 2 ≤ cfg.NF ∧ 2 ≤ cfg.NQ

/-- A row of the opcode map: `CMD` pattern, the bits of `CMD` it fixes, and the number of legal selector
values, 1 where the format uses no `SEL` (R48). -/
structure OpcodeRow where
  pattern : Word
  mask : Word
  selLimit : Nat
  deriving DecidableEq, Repr

/-- The rows of R48 with `OP` 0x00 to 0x0F. -/
def engineRows : List OpcodeRow :=
  [⟨0x00000000, 0xFFFFFFFF, 1⟩,
   ⟨0x01000000, 0xFFFFFFFF, 1⟩,
   ⟨0x02000000, 0xFFFFFFFF, 1⟩,
   ⟨0x03000000, 0xFFFFFFFF, 1⟩,
   ⟨0x04000000, 0xFFFFFFFF, 1⟩,
   ⟨0x05000000, 0xFFFFFFFF, 1⟩,
   ⟨0x06000000, 0xFF00FFFF, 2⟩]

/-- The rows of R48 with `OP` 0x10 to 0x1F. -/
def clockRows : List OpcodeRow :=
  [⟨0x10000000, 0xFFFFFFFF, 1⟩,
   ⟨0x11000000, 0xFFFFFFFF, 1⟩,
   ⟨0x12000000, 0xFFFFFFFF, 1⟩,
   ⟨0x13000000, 0xFFFFFFFF, 1⟩,
   ⟨0x14000000, 0xFFFFFFFF, 1⟩,
   ⟨0x18000000, 0xFFFFFFFF, 1⟩,
   ⟨0x19000000, 0xFFFFFFFF, 1⟩,
   ⟨0x1A000000, 0xFF00FFFF, 2⟩,
   ⟨0x1B000000, 0xFF00FFFF, 2⟩]

/-- The rows of R48 with `OP` 0x20 to 0x2F. -/
def sequencerRows : List OpcodeRow :=
  [⟨0x20000000, 0xFF00FFFF, 3⟩,
   ⟨0x21000000, 0xFF000000, 3⟩,
   ⟨0x22000000, 0xFF000000, 2⟩,
   ⟨0x23000000, 0xFFFF0000, 1⟩,
   ⟨0x24000000, 0xFFFFFFFF, 1⟩,
   ⟨0x28000000, 0xFF00FFFF, 3⟩,
   ⟨0x29000000, 0xFF00FFFF, 3⟩,
   ⟨0x2A000000, 0xFF000000, 2⟩,
   ⟨0x2B000000, 0xFF00FFFF, 2⟩,
   ⟨0x2C000000, 0xFFFF0000, 1⟩,
   ⟨0x2D000000, 0xFFFFFFFF, 1⟩,
   ⟨0x2E000000, 0xFFFFFFFF, 1⟩,
   ⟨0x2F000000, 0xFFFFFFFF, 1⟩]

/-- The rows of R48 with `OP` 0x30 to 0x3F. -/
def quantizerRows : List OpcodeRow :=
  [⟨0x30000000, 0xFFFFFFFF, 1⟩,
   ⟨0x31000000, 0xFFFFFFFF, 1⟩,
   ⟨0x32000000, 0xFFFFFFFF, 1⟩,
   ⟨0x33000000, 0xFFFFFFFE, 1⟩,
   ⟨0x34000000, 0xFFFFFFFF, 1⟩,
   ⟨0x38000000, 0xFFFFFFFF, 1⟩,
   ⟨0x39000000, 0xFFFFFFFF, 1⟩]

/-- The rows of R48 with `OP` 0x40 to 0x4F. -/
def oscillatorRows : List OpcodeRow :=
  [⟨0x40000000, 0xFFFFFFFF, 1⟩,
   ⟨0x41000000, 0xFFFFFFFF, 1⟩,
   ⟨0x42000000, 0xFFFFFFFF, 1⟩,
   ⟨0x48000000, 0xFFFFFFFF, 1⟩,
   ⟨0x49000000, 0xFFFFFFFF, 1⟩,
   ⟨0x4A000000, 0xFFFFFFFF, 1⟩,
   ⟨0x4B000000, 0xFFFFFFFF, 1⟩,
   ⟨0x4C000000, 0xFF00FFFF, 3⟩]

/-- The rows of R48 with `OP` 0x50 to 0x5F. -/
def filterRows : List OpcodeRow :=
  [⟨0x50000000, 0xFFFFFFFF, 1⟩,
   ⟨0x51000000, 0xFFFFFFFF, 1⟩,
   ⟨0x52000000, 0xFFFFFFFF, 1⟩,
   ⟨0x53000000, 0xFFFFFFFF, 1⟩,
   ⟨0x58000000, 0xFFFFFFFF, 1⟩,
   ⟨0x59000000, 0xFFFFFFFF, 1⟩,
   ⟨0x5A000000, 0xFFFFFFFF, 1⟩,
   ⟨0x5B000000, 0xFFFFFFFF, 1⟩,
   ⟨0x5C000000, 0xFFFFFFFF, 1⟩,
   ⟨0x5D000000, 0xFF00FFFF, 5⟩,
   ⟨0x5E000000, 0xFF00FFFF, 4⟩]

/-- The rows of R48 with `OP` 0x60 to 0x6F. -/
def envelopeRows : List OpcodeRow :=
  [⟨0x60000000, 0xFF00FFFF, 2⟩,
   ⟨0x61000000, 0xFF00FFFF, 2⟩,
   ⟨0x62000000, 0xFF00FFFF, 2⟩,
   ⟨0x68000000, 0xFF00FFFF, 2⟩,
   ⟨0x69000000, 0xFF00FFFF, 2⟩,
   ⟨0x6A000000, 0xFF00FFFF, 2⟩,
   ⟨0x6B000000, 0xFF00FFFF, 2⟩,
   ⟨0x6C000000, 0xFF00FFFF, 2⟩]

/-- The opcode map of R48, all 63 rows. -/
def opcodeMap : List OpcodeRow :=
  engineRows ++ clockRows ++ sequencerRows ++ quantizerRows ++ oscillatorRows ++ filterRows ++ envelopeRows

/-- The row whose `OP` a command has (R47 step 1). -/
def rowOf (c : Command) : Option OpcodeRow :=
  opcodeMap.find? fun r => r.pattern.extractLsb' 24 8 == c.cmd.extractLsb' 24 8

/-- The commands R48 marks `q`. -/
def Instr.isQuery (i : Instr) : Bool :=
  match i with
  | .nop => false
  | .engGetId => true
  | .engGetStatus => true
  | .engGetErrCode => true
  | .transportStart => false
  | .transportStop => false
  | .engGetOut _ => true
  | .clkInit _ => false
  | .clkSetFreq _ => false
  | .clkSetBpm _ => false
  | .clkSetMult _ => false
  | .clkSetPhaseToEnd => false
  | .clkGetFreq => true
  | .clkGetMult => true
  | .clkGetPhase _ => true
  | .clkGetInc _ => true
  | .seqInit _ _ => false
  | .seqSetCurrent _ _ => false
  | .trigToggle _ _ => false
  | .pitchSetNote _ _ => false
  | .pitchSetTranspose _ => false
  | .seqGetCurrent _ => true
  | .seqGetLength _ => true
  | .trigGetStep _ _ => true
  | .trigGetCurrentActive _ => true
  | .pitchGetNote _ => true
  | .pitchGetTranspose => true
  | .pitchGetCurrentFreq => true
  | .pitchGetCurrentName => true
  | .qSetKey _ => false
  | .qSetScale _ => false
  | .qQuantize _ => true
  | .qNoteToHz _ _ => true
  | .qNoteToName _ => true
  | .qGetKey => true
  | .qGetScale => true
  | .oscSetFreq _ => false
  | .oscSetAmp _ => false
  | .oscSetMode _ => false
  | .oscGetFreq => true
  | .oscGetAmp => true
  | .oscGetMode => true
  | .oscGetPhase => true
  | .oscGetSineState _ => true
  | .filtSetFreq _ => false
  | .filtSetQ _ => false
  | .filtAddFreq _ => false
  | .filtSetEnvDepth _ => false
  | .filtGetFreq => true
  | .filtGetQ => true
  | .filtGetMod => true
  | .filtGetEffFreq => true
  | .filtGetEnvDepth => true
  | .filtGetCoef _ => true
  | .filtGetState _ => true
  | .envSetAttack _ _ => false
  | .envSetDecay _ _ => false
  | .envTrigger _ => false
  | .envGetAttack _ => true
  | .envGetDecay _ => true
  | .envGetOutput _ => true
  | .envGetStage _ => true
  | .envGetTimer _ => true

namespace Machine

variable {cfg : Config}

/-- A length and a playhead within their legal values (R14). -/
abbrev TrackLegal (cfg : Config) (len : BitVec 17) (cur : BitVec 16) : Prop :=
  1 ≤ len.toNat ∧ len.toNat ≤ cfg.N_MAX ∧ cur.toNat < len.toNat

/-- The legal values of the integer registers: R12, R14, R15, R16, R23. -/
structure ControlLegal (s : State cfg) : Prop where
  multIdx : s.clk.multIdx.toNat < cfg.MULT_TABLE.length
  inc : 1 ≤ s.clk.inc.toNat ∧ s.clk.inc.toNat ≤ cfg.PERIOD
  trig0 : TrackLegal cfg s.trig0.len s.trig0.cur
  trig1 : TrackLegal cfg s.trig1.len s.trig1.cur
  pitch : TrackLegal cfg s.pitch.len s.pitch.cur
  transpose : cfg.TRANSPOSE_MIN ≤ s.pitch.transpose.toInt ∧ s.pitch.transpose.toInt ≤ cfg.TRANSPOSE_MAX
  note : ∀ i, i < cfg.N_MAX →
    cfg.NOTE_MIN ≤ s.pitch.noteAt i ∧ s.pitch.noteAt i ≤ cfg.NOTE_MAX + 11
  key : s.quant.key.toNat ≤ 11
  scale : s.quant.scale.toNat < cfg.NUM_SCALES
  errCode : s.eng.errCode.toNat ≤ 8
  err : s.eng.err = false ↔ s.eng.errCode = 0

/-- Every derived register holds what its rule gives for the registers it is derived from: CLK_INC (R12, R54),
OSC_INC (R19), OSC_COEFF, which follows every write of OSC_INC (R96, R160), FILT_EFF and the coefficients (R20,
R111). -/
structure DerivedLegal (s : State cfg) : Prop where
  clkInc : s.clk.inc = clkIncOf cfg s.clk.freq s.clk.multIdx
  oscInc : s.osc.inc = s.osc.freq.div (srF32 cfg)
  oscCoeff : s.osc.coeff = (F32.ofInt 2).mul (cfg.COS (F32.mul ⟨0x40C90FDB⟩ s.osc.inc))
  filtEff : s.filt.eff = (s.filt.freq.add s.filt.mod).clamp (F32.ofInt 20) (F32.ofInt 20000)
  coef : s.filt.coef = coefOf cfg s.filt.eff s.filt.q

/-- `lo <= x <= hi` as IEEE comparisons, so `x` is no NaN. -/
abbrev Within (x lo hi : F32) : Prop := lo.le x = true ∧ x.le hi = true

/-- The legal values of an envelope (R22): in IDLE output and timer are 0, in DECAY the output is above 0. -/
structure EnvelopeLegal (e : Envelope cfg) : Prop where
  attack : Within e.attack (F32.ofRat 1 1000) (F32.ofInt 10)
  decay : Within e.decay (F32.ofRat 1 1000) (F32.ofInt 10)
  timer : (F32.ofInt 0).le e.timer = true
  out : Within e.out (F32.ofInt 0) (F32.ofInt 1)
  idle : e.stage = .idle → e.out.eqv (F32.ofInt 0) = true ∧ e.timer.eqv (F32.ofInt 0) = true
  decaying : e.stage = .decay → (F32.ofInt 0).lt e.out = true

/-- The legal values of the binary32 registers whose range 10_state.md states: R12, R19, R20, R22. -/
structure SignalLegal (s : State cfg) : Prop where
  clkFreq : (F32.ofInt 0).lt s.clk.freq = true
  oscFreq : Within s.osc.freq (F32.ofInt 0) (nyqF32 cfg)
  oscInc : Within s.osc.inc (F32.ofInt 0) (F32.ofRat 1 2)
  oscAmp : Within s.osc.amp (F32.ofInt 0) (F32.ofInt 1)
  oscPhase : (F32.ofInt 0).le s.osc.phase = true ∧ s.osc.phase.lt (F32.ofInt 1) = true
  filtFreq : Within s.filt.freq (F32.ofInt 20) (F32.ofInt 20000)
  filtQ : Within s.filt.q minQ (F32.ofInt 5)
  filtMod : Within s.filt.mod (F32.ofInt (-20000)) (F32.ofInt 20000)
  filtDepth : Within s.filt.depth (F32.ofInt (-20000)) (F32.ofInt 20000)
  filtEff : Within s.filt.eff (F32.ofInt 20) (F32.ofInt 20000)
  env0 : EnvelopeLegal s.env0
  env1 : EnvelopeLegal s.env1

/-- `s` after a command that is applied and responds `v`: one more response, status 0 (R44), and nothing else. -/
def State.answeredWith (s : State cfg) (v : Word) : State cfg :=
  { s with responses := s.responses ++ [{ status := 0, data := v }] }

/-- `s` after a command that is rejected with `code` (R147): the latch if it was open, one more response with
data 0, and nothing else. -/
def State.rejectedWith (s : State cfg) (code : BitVec 8) : State cfg :=
  { s with
    eng := if s.eng.err then s.eng else { s.eng with err := true, errCode := code }
    responses := s.responses ++ [{ status := code, data := 0 }] }

/-- `m` is in scale (R83): one of the twelve slots of the row `SCALE` holds its degree above the key. -/
def NoteInScale (q : Quantizer cfg) (m : Int) : Prop :=
  ∃ row : List Nat, cfg.SCALE_TABLE[q.scale.toNat]? = some row ∧
    ∃ j : Nat, j < 12 ∧ row[j]? = some ((m - q.key.toNat) % 12).toNat

/-- The sine recurrence is derived anew from phase and increment (R96): `o` is as OSC_RESYNC leaves it. -/
structure Resynced (o : Oscillator) : Prop where
  coeff : o.coeff = (F32.ofInt 2).mul (F32.cos (F32.mul ⟨0x40C90FDB⟩ o.inc))
  y1 : o.y1 = F32.sin ((F32.mul ⟨0x40C90FDB⟩ o.phase).sub (F32.mul ⟨0x40C90FDB⟩ o.inc))
  y2 : o.y2 = F32.sin ((F32.mul ⟨0x40C90FDB⟩ o.phase).sub
    ((F32.ofInt 2).mul (F32.mul ⟨0x40C90FDB⟩ o.inc)))

/-- `o'` is `o` after OSC_SET_FREQ_INT(f) (R97), for an `f` that is no NaN. -/
structure TunedTo (f : F32) (o o' : Oscillator) : Prop where
  freq : o'.freq =
    if f.lt (F32.ofInt 0) then F32.ofInt 0 else if (F32.ofInt 24000).lt f then F32.ofInt 24000 else f
  inc : o'.inc = o'.freq.div (F32.ofInt 48000)
  sine : Resynced o'
  kept : o'.amp = o.amp ∧ o'.mode = o.mode ∧ o'.phase = o.phase

/-- `b` is BLEP(p, dt) (R98). -/
structure IsBlep (p dt b : F32) : Prop where
  start : p.lt dt = true → ∃ t, t = p.div dt ∧ b = ((t.add t).sub (t.mul t)).sub (F32.ofInt 1)
  finish : p.lt dt = false → ((F32.ofInt 1).sub dt).lt p = true → ∃ t, t = (p.sub (F32.ofInt 1)).div dt ∧
    b = (((t.mul t).add t).add t).add (F32.ofInt 1)
  between : p.lt dt = false → ((F32.ofInt 1).sub dt).lt p = false → b = ⟨0⟩

/-- From `o` OSC_PROCESS leaves `o'` and returns the sample `x` (R99): the wave of each mode scaled by the
amplitude, the recurrence in sine mode only, the phase always. -/
structure OscStep (o o' : Oscillator) (x : F32) : Prop where
  sine : o.mode = 0 → o'.y1 = (o.coeff.mul o.y1).sub o.y2 ∧ o'.y2 = o.y1 ∧ x = o.amp.mul o'.y1
  triangle : o.mode = 1 → ∃ t, t = ((F32.ofInt 2).mul o.phase).sub (F32.ofInt 1) ∧
    x = o.amp.mul (((F32.ofInt 2).mul ⟨t.bits &&& 0x7FFFFFFF⟩).sub (F32.ofInt 1))
  sawtooth : o.mode = 2 → ∃ b, IsBlep o.phase o.inc b ∧
    x = o.amp.mul ((((F32.ofInt 2).mul o.phase).sub (F32.ofInt 1)).sub b)
  silence : o.mode ≠ 0 → o.mode ≠ 1 → o.mode ≠ 2 → x = o.amp.mul ⟨0⟩
  still : o.mode ≠ 0 → o'.y1 = o.y1 ∧ o'.y2 = o.y2
  wrap : (F32.ofInt 1).le (o.phase.add o.inc) = true → o'.phase = (o.phase.add o.inc).sub (F32.ofInt 1)
  advance : (F32.ofInt 1).le (o.phase.add o.inc) = false → o'.phase = o.phase.add o.inc
  kept : o'.freq = o.freq ∧ o'.inc = o.inc ∧ o'.amp = o.amp ∧ o'.mode = o.mode ∧ o'.coeff = o.coeff

/-- `e'` is `e` after ENV_PROCESS (R126), with INV_SR 0x37AEC33E and ENV_EPS 0x38D1B717 (R4). -/
structure EnvStep (e e' : Envelope) : Prop where
  idle : e.stage = .idle → e' = e
  attack : e.stage = .attack → ∃ t, t = e.timer.add ⟨0x37AEC33E⟩ ∧
    e' = if (F32.ofInt 1).le (t.div e.attack)
      then { e with stage := .decay, timer := ⟨0⟩, out := F32.ofInt 1 }
      else { e with timer := t, out := t.div e.attack }
  decay : e.stage = .decay → ∃ t x, t = e.timer.add ⟨0x37AEC33E⟩ ∧ x = (F32.ofInt 1).sub (t.div e.decay) ∧
    e' = if x.le ⟨0x38D1B717⟩ then { e with stage := .idle, timer := ⟨0⟩, out := ⟨0⟩ }
      else { e with timer := t, out := x }

/-- `e'` is `e` after ENV_TRIGGER_INT (R125). -/
def EnvTriggered (e e' : Envelope) : Prop :=
  e' = { e with stage := .attack, timer := if e.out.eqv ⟨0⟩ then ⟨0⟩ else e.out.mul e.attack }

/-- `c` is COEF_DIRECT(f, q) (R109), left to right as its expressions are written. -/
def IsDirectCoefs (f q : F32) (c : Coefs) : Prop :=
  ∃ w0 cosw alpha b0 : F32,
    w0 = (F32.mul ⟨0x40C90FDB⟩ f).div (F32.ofInt 48000) ∧ cosw = w0.cos ∧
    alpha = w0.sin.div ((F32.ofInt 2).mul q) ∧ b0 = (F32.ofInt 1).add alpha ∧
    c.a0 = (((F32.ofInt 1).sub cosw).div (F32.ofInt 2)).div b0 ∧
    c.a1 = ((F32.ofInt 1).sub cosw).div b0 ∧ c.a2 = c.a0 ∧
    c.b1 = ((F32.ofInt (-2)).mul cosw).div b0 ∧ c.b2 = ((F32.ofInt 1).sub alpha).div b0

/-- `u'` is `u` after FILT_RECOMPUTE and then FILT_PROCESS(x0) (R111, R109, R112). -/
structure FiltStep (x0 : F32) (u u' : FilterUnit) : Prop where
  eff : u'.eff = (u.freq.add u.mod).clamp (F32.ofInt 20) (F32.ofInt 20000)
  coef : IsDirectCoefs u'.eff u.q u'.coef
  x1 : u'.x1 = x0
  x2 : u'.x2 = u.x1
  y1 : u'.y1 = ((((u'.coef.a0.mul x0).add (u'.coef.a1.mul u.x1)).add (u'.coef.a2.mul u.x2)).sub
    (u'.coef.b1.mul u.y1)).sub (u'.coef.b2.mul u.y2)
  y2 : u'.y2 = u.y1
  kept : u'.freq = u.freq ∧ u'.q = u.q ∧ u'.mod = u.mod ∧ u'.depth = u.depth

/-- The synthesis of a playing sample step (R136) from the oscillator `o` and the envelopes `e0`, `e1`, which a
trigger has restarted or not: from `s` it leaves `t`, with one value on both channels and one pair delivered. -/
structure Synthesized (o : Oscillator) (e0 e1 : Envelope) (s t : State) : Prop where
  env0 : t.env0 = envProcess e0 ∧ EnvStep e0 t.env0
  env1 : t.env1 = envProcess e1 ∧ EnvStep e1 t.env1
  osc : t.osc = oscProcess o ∧ OscStep o t.osc (oscOut o)
  filt : FiltStep (t.env0.out.mul (oscOut o)) { s.filt with mod := t.env1.out.mul s.filt.depth } t.filt
  output : t.eng.outL = t.filt.y1 ∧ t.eng.outR = t.filt.y1
  audio : t.audioOut = s.audioOut ++ [{ left := t.filt.y1, right := t.filt.y1 }]
  others : t.responses = s.responses ∧ t.inputs = s.inputs

/-- A run is safe when every step of it answers a next state: nothing of this hardware stops (R150, R153). -/
def SafeStep (s : State) : Prop := ∃ t, step s = .next t

/-- The same of a machine in any configuration (R4). -/
def SafeStepIn (s : State cfg) : Prop := ∃ t, stepIn s = .next t

end Machine
end Sys2Proof
end

