-- ==== Sys2Proof/Certificates/Slice0/Obligations.lean ====
section
/-! DEFINITION. The statements for the provers, from the numbered rules of spec/. A conclusion of the form
`exec i s = .next { s with … }` names everything the command changes; every other register, every pattern
element and every channel is as before. -/

open Sys2Proof Sys2Proof.Machine

/-! ### Encoding -/

/-- R52, R48: words written out from the encoding table decode to the commands they stand for. -/
def Obligations.CommandWordsDecode : Prop :=
  decode ⟨0x04000000, 0⟩ = .ok .transportStart ∧
  decode ⟨0x11000000, 0x40000000⟩ = .ok (.clkSetFreq ⟨0x40000000⟩) ∧
  decode ⟨0x13000000, 0xFFFFFFFD⟩ = .ok (.clkSetMult (-3)) ∧
  decode ⟨0x20010000, 2⟩ = .ok (.seqInit .trig1 2) ∧
  decode ⟨0x22000003, 0⟩ = .ok (.trigToggle .trig0 3) ∧
  decode ⟨0x23000003, 0x3D⟩ = .ok (.pitchSetNote 3 61) ∧
  decode ⟨0x33000001, 0x3D⟩ = .ok (.qNoteToHz true 61) ∧
  decode ⟨0x42000000, 7⟩ = .ok (.oscSetMode 7) ∧
  decode ⟨0x5D030000, 0⟩ = .ok (.filtGetCoef .b1) ∧
  decode ⟨0x60000000, 0x3F000000⟩ = .ok (.envSetAttack .env0 ⟨0x3F000000⟩)

/-- R43, R46, R48: decoding the encoding of a well-formed command gives it back, with every operand; so does
decoding its eight serialised bytes, in either byte order (R34, R4; that CMD is sent first: log entry 12). -/
def Obligations.DecodeOfEncodeIsTheCommand : Prop :=
  ∀ i : Instr, i.wellFormed = true → decode (encode i) = .ok i ∧
    ∀ order : ByteOrder, decodeBytes order (bytesOfCommand order (encode i)) = some (.ok i)

/-- R45, R48: what decodes is well-formed and encodes to the same `CMD`; its `ARG` is encoded too, or is one
that decoding ignores. -/
def Obligations.EncodeOfDecodeIsTheWord : Prop :=
  ∀ (c : Command) (i : Instr), decode c = .ok i →
    i.wellFormed = true ∧ (encode i).cmd = c.cmd ∧
    ((encode i).arg = c.arg ∨ ∀ a : Word, decode ⟨c.cmd, a⟩ = .ok i)

/-- R47 steps 1 to 3 with the map of R48: the first check that fails decides the error, and a command that
passes them all decodes. -/
def Obligations.DecodeFollowsTheOpcodeMap : Prop :=
  ∀ c : Command,
    match rowOf c with
    | none => decode c = .rejected .illegalOp
    | some r =>
      if c.cmd &&& r.mask ≠ r.pattern then decode c = .rejected .reserved
      else if r.selLimit ≤ (c.cmd.extractLsb' 16 8).toNat then decode c = .rejected .badSel
      else ∃ i : Instr, decode c = .ok i

/-! ### The step, rejection, the agents -/

/-- R36, R47 step 4: a command that decodes is performed, in the state that has consumed it; so it is on a machine
of any configuration (R4; log entry 9), whose instructions and steps are `exec` and `step` in the reference one. -/
def Obligations.StepRunsTheDecodedCommand : Prop :=
  (∀ (s : State) (c : Command) (rest : List Event) (i : Instr),
    s.inputs = .command c :: rest → decode c = .ok i → step s = exec i { s with inputs := rest }) ∧
  (∀ (cfg : Config) (s : State cfg) (c : Command) (rest : List Event) (i : Instr),
    s.inputs = .command c :: rest → decode c = .ok i → stepIn s = execIn i { s with inputs := rest }) ∧
  (∀ s : State, stepIn s = step s ∧ ∀ i : Instr, execIn i s = exec i s)

/-- R47, R146, R147: a command that does not decode is rejected with the number of its error. -/
def Obligations.StepRejectsAnUndecodableCommand : Prop :=
  ∀ (s : State) (c : Command) (rest : List Event) (e : ErrCode),
    s.inputs = .command c :: rest → decode c = .rejected e →
    ∃ code : BitVec 8, (e, code) ∈ [(ErrCode.illegalOp, 1#8), (ErrCode.reserved, 2#8), (ErrCode.badSel, 3#8)] ∧
      step s = .next (State.rejectedWith { s with inputs := rest } code)

/-- R27, R36, R160: a sample request runs one sample step, a reset event sets every register to its reset
value; so they do in any configuration (R4; log entry 9), `State.reset` being the reset state of the reference one.
What the channels hold across a reset is the model's choice (log entry 3). -/
def Obligations.StepAppliesSampleRequestsAndResets : Prop :=
  (∀ (s : State) (rest : List Event),
    (s.inputs = .sample :: rest → step s = .next (sampleStep { s with inputs := rest })) ∧
    (s.inputs = .reset :: rest →
      step s = .next { State.reset with inputs := rest, responses := s.responses, audioOut := s.audioOut })) ∧
  (∀ (cfg : Config) (s : State cfg) (rest : List Event),
    (s.inputs = .sample :: rest → stepIn s = .next (sampleStep { s with inputs := rest })) ∧
    (s.inputs = .reset :: rest → stepIn s =
      .next { State.resetIn cfg with inputs := rest, responses := s.responses, audioOut := s.audioOut })) ∧
  State.resetIn Config.reference = State.reset

/-- R44, R147: each command gets exactly one response, after those before it; a rejected one leaves every
register but `ERR` and `ERR_CODE`, which keep the first error; an applied one leaves those two. -/
def Obligations.EachCommandIsAnsweredOnceAndRejectionIsPrecise : Prop :=
  ∀ (s t : State) (c : Command) (rest : List Event),
    s.inputs = .command c :: rest → step s = .next t →
    ∃ r : Response, t.inputs = rest ∧ t.audioOut = s.audioOut ∧ t.responses = s.responses ++ [r] ∧
      (r.status ≠ 0 → r.data = 0 ∧ r.status.toNat ≤ 8 ∧
        t = { s with
          inputs := rest
          responses := s.responses ++ [r]
          eng := if s.eng.err then s.eng else { s.eng with err := true, errCode := r.status } }) ∧
      (r.status = 0 → t.eng.err = s.eng.err ∧ t.eng.errCode = s.eng.errCode)

/-- R36, R46, R48: a query writes no state; where it has an operand check it may be rejected instead. -/
def Obligations.QueriesWriteNothing : Prop :=
  ∀ (i : Instr) (s t : State), i.isQuery = true → exec i s = .next t →
    (∃ v : Word, t = s.answeredWith v) ∨ (∃ code ∈ [4#8, 5#8], t = s.rejectedWith code)

/-- R26: a sample step leaves every register that only the host writes, and a command leaves every register
that only the audio agent writes. -/
def Obligations.WriterTableIsKept : Prop :=
  (∀ s : State, let t := sampleStep s
    t.clk.freq = s.clk.freq ∧ t.clk.multIdx = s.clk.multIdx ∧ t.clk.inc = s.clk.inc ∧
    t.trig0.len = s.trig0.len ∧ t.trig1.len = s.trig1.len ∧ t.pitch.len = s.pitch.len ∧
    t.pitch.transpose = s.pitch.transpose ∧ t.trig0.active = s.trig0.active ∧
    t.trig1.active = s.trig1.active ∧ t.pitch.note = s.pitch.note ∧ t.quant = s.quant ∧
    t.osc.amp = s.osc.amp ∧ t.osc.mode = s.osc.mode ∧ t.filt.freq = s.filt.freq ∧ t.filt.q = s.filt.q ∧
    t.filt.depth = s.filt.depth ∧ t.env0.attack = s.env0.attack ∧ t.env0.decay = s.env0.decay ∧
    t.env1.attack = s.env1.attack ∧ t.env1.decay = s.env1.decay ∧ t.eng.play = s.eng.play ∧
    t.eng.err = s.eng.err ∧ t.eng.errCode = s.eng.errCode) ∧
  (∀ (i : Instr) (s t : State), exec i s = .next t →
    t.osc.phase = s.osc.phase ∧ t.filt.x1 = s.filt.x1 ∧ t.filt.x2 = s.filt.x2 ∧ t.filt.y1 = s.filt.y1 ∧
    t.filt.y2 = s.filt.y2 ∧ t.env0.out = s.env0.out ∧ t.env1.out = s.env1.out ∧
    t.eng.lastTick = s.eng.lastTick ∧ t.eng.lastTrig = s.eng.lastTrig ∧ t.eng.outL = s.eng.outL ∧
    t.eng.outR = s.eng.outR)

/-- R150, R153, R147: nothing of the machine stops; every step of every state answers a next state, in every
configuration (R4; log entry 9). That a step with no event issued answers the same state is the model's choice (log entry 2). -/
def Obligations.EveryStepAnswersANextState : Prop :=
  (∀ s : State, SafeStep s) ∧ ∀ (cfg : Config) (s : State cfg), SafeStepIn s

/-! ### Reset and the invariants of 10_state.md -/

/-- R160 with the tables of R12, R14, R15, R16, R19, R20, R22, R23: the value of every register after a reset. -/
def Obligations.ResetGivesEveryRegisterItsValue : Prop :=
  ∀ (s : State) (rest : List Event), s.inputs = .reset :: rest → ∃ t : State, step s = .next t ∧
    t.clk = { freq := ⟨0x40000000⟩, multIdx := 4, phase := 0, inc := 11728124030 } ∧
    t.trig0.len = 8 ∧ t.trig1.len = 8 ∧ t.pitch.len = 8 ∧
    t.trig0.cur = 0 ∧ t.trig1.cur = 0 ∧ t.pitch.cur = 0 ∧ t.pitch.transpose = 0 ∧
    (∀ i, i < 64 → t.trig0.stepActive i = false ∧ t.trig1.stepActive i = false ∧ t.pitch.noteAt i = 60) ∧
    t.quant = { key := 0, scale := 0 } ∧
    t.osc =
      { freq := ⟨0x43DC0000⟩, inc := ⟨0x3C162FC9⟩, amp := ⟨0x3F800000⟩, mode := 0, phase := ⟨0⟩,
        coeff := ⟨0x3FFF9354⟩, y1 := ⟨0xBD6BC841⟩, y2 := ⟨0xBDEB642B⟩ } ∧
    t.filt =
      { freq := ⟨0x469C4000⟩, q := ⟨0x3F3504F3⟩, mod := ⟨0⟩, depth := ⟨0⟩, eff := ⟨0x469C4000⟩,
        coef := ⟨⟨0x3F307660⟩, ⟨0x3FB07660⟩, ⟨0x3F307660⟩, ⟨0x3FA3CB01⟩, ⟨0x3EF486FC⟩⟩,
        x1 := ⟨0⟩, x2 := ⟨0⟩, y1 := ⟨0⟩, y2 := ⟨0⟩ } ∧
    t.env0 = { stage := .idle, attack := ⟨0x3C23D70A⟩, decay := ⟨0x3F000000⟩, timer := ⟨0⟩, out := ⟨0⟩ } ∧
    t.env1 = t.env0 ∧
    t.eng =
      { play := false, err := false, errCode := 0, lastTick := false, lastTrig := false,
        outL := ⟨0⟩, outR := ⟨0⟩ }

/-- R160, R162: the integer registers are legal after reset; so they are in every legal configuration that can
hold the reset length 8 (R4, R14; log entry 9). -/
def Obligations.ControlRegistersLegalAtReset : Prop :=
  ControlLegal State.reset ∧
  ∀ cfg : Config, cfg.Legal → 8 ≤ cfg.N_MAX → ControlLegal (State.resetIn cfg)

/-- R12, R14, R15, R16, R23, R81 item 1: every step keeps the integer registers legal, in the reference
configuration and in every legal one (R4; log entry 9) that can hold the reset length 8, which a reset event writes. -/
def Obligations.ControlRegistersStayLegal : Prop :=
  (∀ s t : State, ControlLegal s → step s = .next t → ControlLegal t) ∧
  ∀ (cfg : Config) (s t : State cfg), cfg.Legal → 8 ≤ cfg.N_MAX → ControlLegal s → stepIn s = .next t →
    ControlLegal t

/-- R160: the derived registers, and the sine recurrence, have after reset the values their rules give, with
the model's reference instance of COS and SIN (log entry 5) and with those of any configuration (R4; log entry 9). -/
def Obligations.DerivedRegistersFollowTheirRulesAtReset : Prop :=
  (DerivedLegal State.reset ∧ oscResync State.reset.osc = State.reset.osc) ∧
  ∀ cfg : Config, DerivedLegal (State.resetIn cfg) ∧
    oscResync (State.resetIn cfg).osc = (State.resetIn cfg).osc

/-- R12, R19, R20, R96: every step keeps the derived registers at what their rules give, OSC_COEFF among them, in
the reference configuration and in any other (R4; log entry 9). -/
def Obligations.DerivedRegistersStayInStep : Prop :=
  (∀ s t : State, DerivedLegal s → step s = .next t → DerivedLegal t) ∧
  ∀ (cfg : Config) (s t : State cfg), DerivedLegal s → stepIn s = .next t → DerivedLegal t

/-- R160, R162: the binary32 registers whose range 10_state.md states are in it after reset. -/
def Obligations.SignalRegistersInRangeAtReset : Prop := SignalLegal State.reset

/-- R12, R19, R20, R22, R148: every step keeps the binary32 registers whose range 10_state.md states in that
range, so none of these registers ever holds a NaN. -/
def Obligations.SignalRegistersStayInRange : Prop :=
  ∀ s t : State, SignalLegal s → step s = .next t → SignalLegal t

/-! ### Binary32 arithmetic -/

/-- R7, with the operations of IEEE 754 that it takes: each of the four operators on finite operands is the exact
result rounded once, to nearest even, with gradual underflow and overflow to infinity; so is `to_f32` of a
rational. An exactly zero sum is +0, or -0 where both addends are negative, and likewise a difference; a product
and a quotient have the exclusive or of the signs; infinite operands and a division by zero give the infinity or
the zero of IEEE 754; an invalid operation or a NaN operand gives a NaN. -/
def Obligations.ArithmeticIsRoundedOnceToNearestEven : Prop :=
  (∀ (z : Int) (d : Nat), 0 < d → IsRounded ((z : ℚ) / d) (F32.ofRat z d)) ∧
  (∀ z : Int, F32.ofInt z = F32.ofRat z 1) ∧
  ∀ a b : F32,
    (a.isFinite = true → b.isFinite = true →
      IsRounded (a.value + b.value) (a.add b) ∧ IsRounded (a.value - b.value) (a.sub b) ∧
      IsRounded (a.value * b.value) (a.mul b) ∧ (b.value ≠ 0 → IsRounded (a.value / b.value) (a.div b)) ∧
      (a.value + b.value = 0 → a.add b = F32.zero (a.isNegative && b.isNegative)) ∧
      (a.value - b.value = 0 → a.sub b = F32.zero (a.isNegative && !b.isNegative)) ∧
      (a.mul b).isNegative = (a.isNegative != b.isNegative) ∧
      (b.value ≠ 0 → (a.div b).isNegative = (a.isNegative != b.isNegative)) ∧
      (b.value = 0 → a.value ≠ 0 → a.div b = F32.infinity (a.isNegative != b.isNegative)) ∧
      (b.value = 0 → a.value = 0 → (a.div b).isNaN = true)) ∧
    (a.isInf = true → b.isFinite = true →
      a.add b = a ∧ b.add a = a ∧ a.sub b = a ∧ b.sub a = F32.infinity (!a.isNegative) ∧
      (b.value ≠ 0 → a.mul b = F32.infinity (a.isNegative != b.isNegative) ∧
        b.mul a = F32.infinity (a.isNegative != b.isNegative)) ∧
      (b.value = 0 → (a.mul b).isNaN = true ∧ (b.mul a).isNaN = true) ∧
      a.div b = F32.infinity (a.isNegative != b.isNegative) ∧
      b.div a = F32.zero (a.isNegative != b.isNegative)) ∧
    (a.isInf = true → b.isInf = true →
      (a.isNegative = b.isNegative → a.add b = a ∧ (a.sub b).isNaN = true) ∧
      (a.isNegative ≠ b.isNegative → (a.add b).isNaN = true ∧ a.sub b = a) ∧
      a.mul b = F32.infinity (a.isNegative != b.isNegative) ∧ (a.div b).isNaN = true) ∧
    (a.isNaN = true ∨ b.isNaN = true →
      (a.add b).isNaN = true ∧ (a.sub b).isNaN = true ∧ (a.mul b).isNaN = true ∧ (a.div b).isNaN = true)

/-- R7, R5: comparisons are on the values, so the two zeros are equal, and no comparison with a NaN holds; and
R6: the clamp is by these comparisons. -/
def Obligations.ComparisonsFollowTheValues : Prop :=
  (∀ a b : F32,
    (a.isFinite = true → b.isFinite = true →
      (a.lt b = true ↔ a.value < b.value) ∧ (a.le b = true ↔ a.value ≤ b.value) ∧
      (a.eqv b = true ↔ a.value = b.value)) ∧
    (a.isNaN = true ∨ b.isNaN = true → a.lt b = false ∧ a.le b = false ∧ a.eqv b = false)) ∧
  ∀ v lo hi : F32, v.clamp lo hi = if v.lt lo then lo else if hi.lt v then hi else v

/-! ### Clock -/

/-- R56, R57, R58, R54: a positive frequency is stored and the increment is the exact rational rounded once
and clamped; CLK_INIT also takes unity and zero phase; CLK_SET_BPM stores `bpm /f 60`. -/
def Obligations.ClockFrequencyCommandsStoreAndRecompute : Prop :=
  ∀ (s : State) (f : F32), IsClockFreq f →
    (∃ inc : BitVec 49, IsClockInc f 4 inc.toNat ∧
      exec (.clkInit f) s = .next (State.answeredWith
        { s with clk := { freq := f, multIdx := 4, phase := 0, inc := inc } } 0)) ∧
    (s.clk.multIdx.toNat < 9 →
      ∃ inc : BitVec 49, IsClockInc f s.clk.multIdx.toNat inc.toNat ∧
        exec (.clkSetFreq f) s = .next (State.answeredWith
          { s with clk := { s.clk with freq := f, inc := inc } } 0) ∧
        ∀ bpm : F32, bpm.div (F32.ofInt 60) = f →
          exec (.clkSetBpm bpm) s = .next (State.answeredWith
            { s with clk := { s.clk with freq := f, inc := inc } } 0))

/-- R56, R57, R58, R148: a NaN, a zero, a negative value and -inf are rejected with code 7. -/
def Obligations.NonPositiveClockFrequencyIsRejected : Prop :=
  ∀ (s : State) (f : F32),
    (f.isNaN = true ∨ f.bits = 0xFF800000 ∨ (f.isFinite = true ∧ f.value ≤ 0)) →
    exec (.clkInit f) s = .next (s.rejectedWith 7) ∧ exec (.clkSetFreq f) s = .next (s.rejectedWith 7) ∧
    ∀ bpm : F32, bpm.div (F32.ofInt 60) = f → exec (.clkSetBpm bpm) s = .next (s.rejectedWith 7)

/-- R59: the index is clamped to 0 .. 8 and the increment recomputed. -/
def Obligations.ClockMultiplierIndexIsClamped : Prop :=
  ∀ (s : State) (k : Int), IsClockFreq s.clk.freq →
    ∃ (idx : BitVec 8) (inc : BitVec 49), (idx.toNat : Int) = max 0 (min k 8) ∧
      IsClockInc s.clk.freq idx.toNat inc.toNat ∧
      exec (.clkSetMult k) s = .next (State.answeredWith
        { s with clk := { s.clk with multIdx := idx, inc := inc } } 0)

/-- R60: the phase becomes `(PERIOD - CLK_INC) mod PERIOD`. -/
def Obligations.PhaseToEndLeavesOneIncrement : Prop :=
  ∀ s : State, 1 ≤ s.clk.inc.toNat → s.clk.inc.toNat ≤ 2 ^ 48 →
    ∃ ph : BitVec 48, (ph.toNat = 2 ^ 48 - s.clk.inc.toNat ∨ s.clk.inc.toNat = 2 ^ 48 ∧ ph = 0) ∧
      (ph.toNat + s.clk.inc.toNat) % 2 ^ 48 = 0 ∧
      exec .clkSetPhaseToEnd s = .next (State.answeredWith { s with clk := { s.clk with phase := ph } } 0)

/-- R55: a playing sample step adds the increment to the phase modulo `PERIOD` and ticks exactly when the sum
reaches `PERIOD`. -/
def Obligations.PlayingSampleAdvancesTheClock : Prop :=
  ∀ s : State, s.eng.play = true → s.clk.inc.toNat ≤ 2 ^ 48 →
    (sampleStep s).clk.phase.toNat = (s.clk.phase.toNat + s.clk.inc.toNat) % 2 ^ 48 ∧
    ((sampleStep s).eng.lastTick = true ↔ 2 ^ 48 ≤ s.clk.phase.toNat + s.clk.inc.toNat) ∧
    (sampleStep s).clk = { s.clk with phase := (sampleStep s).clk.phase }

/-- R164, R65, R60, R137: right after CLK_SET_PHASE_TO_END while playing, and right after TRANSPORT_START, the
next sample step ticks and leaves phase 0. -/
def Obligations.SampleRightAfterPhaseToEndTicks : Prop :=
  ∀ s t : State, 1 ≤ s.clk.inc.toNat → s.clk.inc.toNat ≤ 2 ^ 48 →
    (exec .clkSetPhaseToEnd s = .next t ∧ s.eng.play = true) ∨ exec .transportStart s = .next t →
    (sampleStep t).eng.lastTick = true ∧ (sampleStep t).clk.phase = 0

/-- R65: with no command in between, the number of sample steps from one tick to the next is the floor or the
ceiling of `PERIOD / CLK_INC`. -/
def Obligations.TicksAreSpacedByThePeriodOverTheIncrement : Prop :=
  ∀ r : State, r.eng.play = true → 1 ≤ r.clk.inc.toNat → r.clk.inc.toNat ≤ 2 ^ 48 →
    (sampleStep r).eng.lastTick = true →
    ∃ n : Nat, (n = 2 ^ 48 / r.clk.inc.toNat ∨ n = (2 ^ 48 + r.clk.inc.toNat - 1) / r.clk.inc.toNat) ∧
      1 ≤ n ∧ (sampleStep^[n] (sampleStep r)).eng.lastTick = true ∧
      ∀ m : Nat, 1 ≤ m → m < n → (sampleStep^[m] (sampleStep r)).eng.lastTick = false

/-- R61, R62, R63, R64: each clock query responds its register; the two halves make the register up. -/
def Obligations.ClockQueriesReadTheirRegisters : Prop :=
  ∀ s : State,
    exec .clkGetFreq s = .next (s.answeredWith s.clk.freq.bits) ∧
    exec .clkGetFreq State.reset = .next (State.reset.answeredWith 0x40000000) ∧
    (∃ v : Word, v.toNat = s.clk.multIdx.toNat ∧ exec .clkGetMult s = .next (s.answeredWith v)) ∧
    exec .clkGetMult State.reset = .next (State.reset.answeredWith 4) ∧
    (∃ lo hi : Word, hi.toNat * 2 ^ 32 + lo.toNat = s.clk.phase.toNat ∧
      exec (.clkGetPhase .lo) s = .next (s.answeredWith lo) ∧
      exec (.clkGetPhase .hi) s = .next (s.answeredWith hi)) ∧
    (∃ lo hi : Word, hi.toNat * 2 ^ 32 + lo.toNat = s.clk.inc.toNat ∧
      exec (.clkGetInc .lo) s = .next (s.answeredWith lo) ∧
      exec (.clkGetInc .hi) s = .next (s.answeredWith hi))

/-! ### Sequencers -/

/-- R68: SEQ_INIT takes a length of 1 to 64, puts the playhead on step 0 and clears all 64 elements, notes to
the quantized default note; another length is rejected with code 6. -/
def Obligations.SequencerInitClearsTheWholePattern : Prop :=
  ∀ (s : State) (n : Nat),
    (1 ≤ n → n ≤ 64 →
      (∃ k : TrigTrack, k.len.toNat = n ∧ k.cur = 0 ∧ (∀ i, i < 64 → k.stepActive i = false) ∧
        exec (.seqInit .trig0 n) s = .next (State.answeredWith { s with trig0 := k } 0) ∧
        exec (.seqInit .trig1 n) s = .next (State.answeredWith { s with trig1 := k } 0)) ∧
      (∃ k : PitchTrack, k.len.toNat = n ∧ k.cur = 0 ∧ k.transpose = s.pitch.transpose ∧
        (∀ i, i < 64 → k.noteAt i = quantize s.quant 60) ∧
        exec (.seqInit .pitch n) s = .next (State.answeredWith { s with pitch := k } 0))) ∧
    (n < 1 ∨ 64 < n → ∀ q : SeqSel, exec (.seqInit q n) s = .next (s.rejectedWith 6))

/-- R69: the playhead goes to a step below the length; another index is rejected with code 4. -/
def Obligations.SetCurrentMovesThePlayhead : Prop :=
  ∀ (s : State) (i : Nat),
    (i < s.trig0.len.toNat → s.trig0.len.toNat ≤ 64 → ∃ cur : BitVec 16, cur.toNat = i ∧
      exec (.seqSetCurrent .trig0 i) s =
        .next (State.answeredWith { s with trig0 := { s.trig0 with cur := cur } } 0)) ∧
    (i < s.trig1.len.toNat → s.trig1.len.toNat ≤ 64 → ∃ cur : BitVec 16, cur.toNat = i ∧
      exec (.seqSetCurrent .trig1 i) s =
        .next (State.answeredWith { s with trig1 := { s.trig1 with cur := cur } } 0)) ∧
    (i < s.pitch.len.toNat → s.pitch.len.toNat ≤ 64 → ∃ cur : BitVec 16, cur.toNat = i ∧
      exec (.seqSetCurrent .pitch i) s =
        .next (State.answeredWith { s with pitch := { s.pitch with cur := cur } } 0)) ∧
    (∀ q : SeqSel, (s.seqLen q).toNat ≤ i → exec (.seqSetCurrent q i) s = .next (s.rejectedWith 4))

/-- R70: the step is flipped and no other; a second toggle restores it; an index at or above the length is
rejected with code 4. -/
def Obligations.ToggleFlipsOneStepAndTwiceRestores : Prop :=
  ∀ (s : State) (u : TrigSel) (i : Nat),
    (i < (s.trig u).len.toNat → (s.trig u).len.toNat ≤ 64 →
      ∃ k : TrigTrack, k.len = (s.trig u).len ∧ k.cur = (s.trig u).cur ∧
        (∀ j, k.stepActive j = if j = i then !(s.trig u).stepActive i else (s.trig u).stepActive j) ∧
        exec (.trigToggle u i) s = .next (State.answeredWith (s.setTrig u k) 0) ∧
        exec (.trigToggle u i) (State.answeredWith (s.setTrig u k) 0) =
          .next (State.answeredWith (s.answeredWith 0) 0)) ∧
    ((s.trig u).len.toNat ≤ i → exec (.trigToggle u i) s = .next (s.rejectedWith 4))

/-- R71: the quantized note, which is in scale, is stored at the step and nowhere else; the index is checked
before the note. -/
def Obligations.SetNoteStoresTheQuantizedNote : Prop :=
  ∀ (s : State) (i : Nat) (n : Int),
    (i < s.pitch.len.toNat → s.pitch.len.toNat ≤ 64 → 0 ≤ n → n ≤ 127 →
      ∃ k : PitchTrack, k.len = s.pitch.len ∧ k.cur = s.pitch.cur ∧ k.transpose = s.pitch.transpose ∧
        (∀ j, k.noteAt j = if j = i then quantize s.quant n else s.pitch.noteAt j) ∧
        (s.quant.scale.toNat < 10 → NoteInScale s.quant (k.noteAt i)) ∧
        exec (.pitchSetNote i n) s = .next (State.answeredWith { s with pitch := k } 0)) ∧
    (s.pitch.len.toNat ≤ i → exec (.pitchSetNote i n) s = .next (s.rejectedWith 4)) ∧
    (i < s.pitch.len.toNat → n < 0 ∨ 127 < n → exec (.pitchSetNote i n) s = .next (s.rejectedWith 5))

/-- R72: the transpose offset is clamped to -64 .. 64. -/
def Obligations.TransposeIsClamped : Prop :=
  ∀ (s : State) (d : Int), ∃ v : BitVec 8, v.toInt = max (-64) (min d 64) ∧
    exec (.pitchSetTranspose d) s =
      .next (State.answeredWith { s with pitch := { s.pitch with transpose := v } } 0)

/-- R73 to R80: each sequencer query responds what its rule names; a step index at or above the length is
rejected with code 4. -/
def Obligations.SequencerQueriesReadTheirRegisters : Prop :=
  ∀ s : State,
    (∀ q : SeqSel, (∃ v : Word, v.toNat = (s.seqCur q).toNat ∧
        exec (.seqGetCurrent q) s = .next (s.answeredWith v)) ∧
      (∃ v : Word, v.toNat = (s.seqLen q).toNat ∧ exec (.seqGetLength q) s = .next (s.answeredWith v))) ∧
    (∀ (u : TrigSel) (i : Nat),
      (i < (s.trig u).len.toNat → exec (.trigGetStep u i) s =
        .next (s.answeredWith (if (s.trig u).stepActive i then 1 else 0))) ∧
      ((s.trig u).len.toNat ≤ i → exec (.trigGetStep u i) s = .next (s.rejectedWith 4)) ∧
      exec (.trigGetCurrentActive u) s =
        .next (s.answeredWith (if (s.trig u).stepActive (s.trig u).cur.toNat then 1 else 0))) ∧
    (∀ i : Nat,
      (i < s.pitch.len.toNat → ∃ v : Word, v.toInt = s.pitch.noteAt i ∧
        exec (.pitchGetNote i) s = .next (s.answeredWith v)) ∧
      (s.pitch.len.toNat ≤ i → exec (.pitchGetNote i) s = .next (s.rejectedWith 4))) ∧
    (∃ v : Word, v.toInt = s.pitch.transpose.toInt ∧ exec .pitchGetTranspose s = .next (s.answeredWith v)) ∧
    exec .pitchGetCurrentFreq s = .next (s.answeredWith
      (noteToHz Config.reference (s.pitch.noteAt s.pitch.cur.toNat + s.pitch.transpose.toInt)).bits) ∧
    exec .pitchGetCurrentName s = .next (s.answeredWith
      (noteToName (s.pitch.noteAt s.pitch.cur.toNat + s.pitch.transpose.toInt)))

/-- R66, R136: what a playing sample step does to the playheads, the trigger flag and the oscillator's
frequency: advance on a tick, cross-track reset on TRIG1's new step, trigger test on TRIG0's step after it. -/
def Obligations.PlayingSampleRunsTheSequencers : Prop :=
  ∀ s : State, ControlLegal s → s.eng.play = true →
    let t := sampleStep s
    let tick := t.eng.lastTick
    let reset := tick && t.trig1.stepActive t.trig1.cur.toNat
    t.trig1.cur.toNat = (if tick then (s.trig1.cur.toNat + 1) % s.trig1.len.toNat else s.trig1.cur.toNat) ∧
    t.trig0.cur.toNat = (if reset then 0
      else if tick then (s.trig0.cur.toNat + 1) % s.trig0.len.toNat else s.trig0.cur.toNat) ∧
    t.pitch.cur.toNat = (if reset then 0
      else if tick then (s.pitch.cur.toNat + 1) % s.pitch.len.toNat else s.pitch.cur.toNat) ∧
    t.eng.lastTrig = (tick && t.trig0.stepActive t.trig0.cur.toNat) ∧
    t.osc.freq = (if t.eng.lastTrig
      then (noteToHz Config.reference (t.pitch.noteAt t.pitch.cur.toNat + t.pitch.transpose.toInt)).clamp
        (F32.ofInt 0) (nyqF32 Config.reference)
      else s.osc.freq)

/-- R81 item 2: with 8 primary steps and 2 secondary steps of which step 0 alone is active, after two ticks the
primary is on step 0 if the secondary started on step 0, and on step 1 if it started on step 1. -/
def Obligations.CrossTrackResetAfterTwoTicks : Prop :=
  ∀ (s : State) (k : Nat), s.eng.play = true → s.trig0.len = 8 → s.trig1.len = 2 →
    s.trig1.stepActive 0 = true → s.trig1.stepActive 1 = false →
    (sampleStep s).eng.lastTick = true →
    (∀ j, j < k → (sampleStep^[j + 2] s).eng.lastTick = false) →
    (sampleStep^[k + 2] s).eng.lastTick = true →
    (s.trig1.cur = 0 → (sampleStep^[k + 2] s).trig0.cur = 0) ∧
    (s.trig1.cur = 1 → (sampleStep^[k + 2] s).trig0.cur = 1)

/-! ### Quantizer -/

/-- R84, R83: QUANTIZE gives the least note at or above the operand that is in scale, at most 2 above it. -/
def Obligations.QuantizeIsTheLeastNoteInScale : Prop :=
  ∀ (q : Quantizer) (n : Int), q.scale.toNat < 10 →
    n ≤ quantize q n ∧ quantize q n ≤ n + 2 ∧ NoteInScale q (quantize q n) ∧
    ∀ m : Int, n ≤ m → m < quantize q n → ¬ NoteInScale q m

/-- R94: QUANTIZE is idempotent, its result is in scale, and with scale 0 it changes nothing. -/
def Obligations.QuantizeIsIdempotentAndChromaticIsIdentity : Prop :=
  ∀ (q : Quantizer) (n : Int), q.scale.toNat < 10 →
    quantize q (quantize q n) = quantize q n ∧ NoteInScale q (quantize q n) ∧
    (q.scale = 0 → quantize q n = n)

/-- R87, R88: key and scale are clamped; stored notes are left as they are. -/
def Obligations.KeyAndScaleAreClamped : Prop :=
  ∀ (s : State) (k : Int),
    (∃ v : BitVec 4, (v.toNat : Int) = max 0 (min k 11) ∧
      exec (.qSetKey k) s = .next (State.answeredWith { s with quant := { s.quant with key := v } } 0)) ∧
    (∃ v : BitVec 8, (v.toNat : Int) = max 0 (min k 9) ∧
      exec (.qSetScale k) s = .next (State.answeredWith { s with quant := { s.quant with scale := v } } 0))

/-- R89, R90, R91, R92, R93: the quantizer queries; a note outside 0 .. 127 is rejected with code 5. -/
def Obligations.QuantizerQueriesAnswerOrRejectTheNote : Prop :=
  ∀ s : State,
    (∀ n : Int, 0 ≤ n → n ≤ 127 →
      (∃ v : Word, v.toInt = quantize s.quant n ∧ exec (.qQuantize n) s = .next (s.answeredWith v)) ∧
      exec (.qNoteToHz false n) s = .next (s.answeredWith (noteToHz Config.reference n).bits) ∧
      exec (.qNoteToHz true n) s = .next (s.answeredWith (noteToHz Config.reference (quantize s.quant n)).bits) ∧
      exec (.qNoteToName n) s = .next (s.answeredWith (noteToName n))) ∧
    (∀ n : Int, n < 0 ∨ 127 < n →
      exec (.qQuantize n) s = .next (s.rejectedWith 5) ∧
      (∀ b : Bool, exec (.qNoteToHz b n) s = .next (s.rejectedWith 5)) ∧
      exec (.qNoteToName n) s = .next (s.rejectedWith 5)) ∧
    (∃ v : Word, v.toNat = s.quant.key.toNat ∧ exec .qGetKey s = .next (s.answeredWith v)) ∧
    exec .qGetKey State.reset = .next (State.reset.answeredWith 0) ∧
    (∃ v : Word, v.toNat = s.quant.scale.toNat ∧ exec .qGetScale s = .next (s.answeredWith v)) ∧
    exec .qGetScale State.reset = .next (State.reset.answeredWith 0)

/-- R85, R86: NOTE_TO_HZ is its formula for every note, and with the reference instance of EXP2 (log entry 5) the
octaves of the root note are exact, 440 · 2^k for note 69 + 12 k; the names repeat with the octave, for negative
notes too. -/
def Obligations.OctavesOfTheRootAreExactAndNamesRepeat : Prop :=
  (∀ m : Int, noteToHz Config.reference m =
    (F32.ofInt 440).mul (F32.exp2 ((F32.ofInt (m - 69)).div (F32.ofInt 12)))) ∧
  (∀ k ∈ List.range 12, (noteToHz Config.reference (69 + 12 * (k : Int))).value = 440 * 2 ^ k ∧
    (noteToHz Config.reference (69 - 12 * (k : Int))).value = 440 / 2 ^ k) ∧
  (∀ m : Int, noteToName (m + 12) = noteToName m) ∧
  (List.range 12).map (fun k => noteToName (k : Int)) =
    [0x43, 0x2343, 0x44, 0x2344, 0x45, 0x46, 0x2346, 0x47, 0x2347, 0x41, 0x2341, 0x42]

/-! ### Oscillator -/

/-- R97, R100, R101, R102, R96: the oscillator's setters, with the sine recurrence derived again from the
current phase by the frequency and mode commands; the phase is kept. -/
def Obligations.OscillatorSettersClampAndResync : Prop :=
  ∀ (s : State),
    (∀ f : F32, f.isNaN = false → ∃ o : Oscillator, TunedTo f s.osc o ∧
      exec (.oscSetFreq f) s = .next (State.answeredWith { s with osc := o } 0)) ∧
    (∀ a : F32, a.isNaN = false → ∃ v : F32,
      v = (if a.lt (F32.ofInt 0) then F32.ofInt 0 else if (F32.ofInt 1).lt a then F32.ofInt 1 else a) ∧
      exec (.oscSetAmp a) s = .next (State.answeredWith { s with osc := { s.osc with amp := v } } 0)) ∧
    (∀ m : Word, ∃ o : Oscillator, Resynced o ∧
      o = { s.osc with mode := m, coeff := o.coeff, y1 := o.y1, y2 := o.y2 } ∧
      exec (.oscSetMode m) s = .next (State.answeredWith { s with osc := o } 0))

/-- R103, R104, R105, R106, R107: each oscillator query responds its register. -/
def Obligations.OscillatorQueriesReadTheirRegisters : Prop :=
  ∀ s : State,
    exec .oscGetFreq s = .next (s.answeredWith s.osc.freq.bits) ∧
    exec .oscGetFreq State.reset = .next (State.reset.answeredWith 0x43DC0000) ∧
    exec .oscGetAmp s = .next (s.answeredWith s.osc.amp.bits) ∧
    exec .oscGetAmp State.reset = .next (State.reset.answeredWith 0x3F800000) ∧
    exec .oscGetMode s = .next (s.answeredWith s.osc.mode) ∧
    exec .oscGetPhase s = .next (s.answeredWith s.osc.phase.bits) ∧
    exec (.oscGetSineState .coeff) s = .next (s.answeredWith s.osc.coeff.bits) ∧
    exec (.oscGetSineState .y1) s = .next (s.answeredWith s.osc.y1.bits) ∧
    exec (.oscGetSineState .y2) s = .next (s.answeredWith s.osc.y2.bits)

/-- R148, R100, R101, R113 to R116, R127, R128: a NaN operand of these eight commands is rejected with code 8. -/
def Obligations.NaNOperandsAreRejected : Prop :=
  ∀ (s : State) (v : F32), v.isNaN = true →
    exec (.oscSetFreq v) s = .next (s.rejectedWith 8) ∧ exec (.oscSetAmp v) s = .next (s.rejectedWith 8) ∧
    exec (.filtSetFreq v) s = .next (s.rejectedWith 8) ∧ exec (.filtSetQ v) s = .next (s.rejectedWith 8) ∧
    exec (.filtAddFreq v) s = .next (s.rejectedWith 8) ∧
    exec (.filtSetEnvDepth v) s = .next (s.rejectedWith 8) ∧
    ∀ e : EnvSel, exec (.envSetAttack e v) s = .next (s.rejectedWith 8) ∧
      exec (.envSetDecay e v) s = .next (s.rejectedWith 8)

/-- R99, R102: with a mode other than 0, 1, 2 the sample is zero, the sine recurrence stands still and the
phase advances as in every mode. -/
def Obligations.UnknownModeIsSilent : Prop :=
  ∀ (cfg : Config) (o : Oscillator cfg), o.mode ≠ 0 → o.mode ≠ 1 → o.mode ≠ 2 → o.amp.isFinite = true →
    (oscOut o).isFinite = true ∧ (oscOut o).value = 0 ∧
    oscProcess o = { o with phase := (oscProcess o).phase } ∧
    ∀ m : Word, (oscProcess ({ o with mode := m } : Oscillator cfg)).phase = (oscProcess o).phase

/-- R108 item 2, R99: in mode 1 the sample at phase `p` equals the sample at `1 -f p` for every `p` in [0.5, 1);
with amplitude 1 it is +1 at phase 0, 0 at 0.25 and 0.75, and -1 at 0.5. -/
def Obligations.TriangleIsSymmetric : Prop :=
  ∀ (cfg : Config) (o : Oscillator cfg), o.mode = 1 →
    (∀ p : F32, (F32.ofRat 1 2).le p = true → p.lt (F32.ofInt 1) = true →
      oscOut ({ o with phase := (F32.ofInt 1).sub p } : Oscillator cfg) =
        oscOut ({ o with phase := p } : Oscillator cfg)) ∧
    (o.amp = ⟨0x3F800000⟩ →
      (o.phase = ⟨0x00000000⟩ → oscOut o = ⟨0x3F800000⟩) ∧
      (o.phase = ⟨0x3E800000⟩ → oscOut o = ⟨0x00000000⟩) ∧
      (o.phase = ⟨0x3F000000⟩ → oscOut o = ⟨0xBF800000⟩) ∧
      (o.phase = ⟨0x3F400000⟩ → oscOut o = ⟨0x00000000⟩))

/-! ### Filter -/

/-- R113, R114, R115, R116, R111, R109: the filter's setters clamp, and the first three recompute the effective
frequency and from it the coefficients, by COEF_DIRECT's expressions; the history is kept. -/
def Obligations.FilterSettersClampAndRecompute : Prop :=
  (∀ f q : F32, IsDirectCoefs f q (coefDirect Config.reference f q)) ∧
  ∀ (s : State) (v : F32), v.isNaN = false →
    (∃ u : FilterUnit, u.freq = v.clamp (F32.ofInt 20) (F32.ofInt 20000) ∧
      u.eff = (u.freq.add s.filt.mod).clamp (F32.ofInt 20) (F32.ofInt 20000) ∧
      u = { s.filt with freq := u.freq, eff := u.eff, coef := coefDirect Config.reference u.eff s.filt.q } ∧
      exec (.filtSetFreq v) s = .next (State.answeredWith { s with filt := u } 0)) ∧
    (∃ u : FilterUnit, u.q = v.clamp (F32.ofRat 2 10) (F32.ofInt 5) ∧
      u.eff = (s.filt.freq.add s.filt.mod).clamp (F32.ofInt 20) (F32.ofInt 20000) ∧
      u = { s.filt with q := u.q, eff := u.eff, coef := coefDirect Config.reference u.eff u.q } ∧
      exec (.filtSetQ v) s = .next (State.answeredWith { s with filt := u } 0)) ∧
    (∃ u : FilterUnit, u.mod = v.clamp (F32.ofInt (-20000)) (F32.ofInt 20000) ∧
      u.eff = (s.filt.freq.add u.mod).clamp (F32.ofInt 20) (F32.ofInt 20000) ∧
      u = { s.filt with mod := u.mod, eff := u.eff, coef := coefDirect Config.reference u.eff s.filt.q } ∧
      exec (.filtAddFreq v) s = .next (State.answeredWith { s with filt := u } 0)) ∧
    exec (.filtSetEnvDepth v) s = .next (State.answeredWith
      { s with filt := { s.filt with depth := v.clamp (F32.ofInt (-20000)) (F32.ofInt 20000) } } 0)

/-- R117 to R123: each filter query responds its register. -/
def Obligations.FilterQueriesReadTheirRegisters : Prop :=
  ∀ s : State,
    exec .filtGetFreq s = .next (s.answeredWith s.filt.freq.bits) ∧
    exec .filtGetFreq State.reset = .next (State.reset.answeredWith 0x469C4000) ∧
    exec .filtGetQ s = .next (s.answeredWith s.filt.q.bits) ∧
    exec .filtGetQ State.reset = .next (State.reset.answeredWith 0x3F3504F3) ∧
    exec .filtGetMod s = .next (s.answeredWith s.filt.mod.bits) ∧
    exec .filtGetMod State.reset = .next (State.reset.answeredWith 0) ∧
    exec .filtGetEffFreq s = .next (s.answeredWith s.filt.eff.bits) ∧
    exec .filtGetEnvDepth s = .next (s.answeredWith s.filt.depth.bits) ∧
    exec .filtGetEnvDepth State.reset = .next (State.reset.answeredWith 0) ∧
    exec (.filtGetCoef .a0) s = .next (s.answeredWith s.filt.coef.a0.bits) ∧
    exec (.filtGetCoef .a1) s = .next (s.answeredWith s.filt.coef.a1.bits) ∧
    exec (.filtGetCoef .a2) s = .next (s.answeredWith s.filt.coef.a2.bits) ∧
    exec (.filtGetCoef .b1) s = .next (s.answeredWith s.filt.coef.b1.bits) ∧
    exec (.filtGetCoef .b2) s = .next (s.answeredWith s.filt.coef.b2.bits) ∧
    exec (.filtGetState .x1) s = .next (s.answeredWith s.filt.x1.bits) ∧
    exec (.filtGetState .x2) s = .next (s.answeredWith s.filt.x2.bits) ∧
    exec (.filtGetState .y1) s = .next (s.answeredWith s.filt.y1.bits) ∧
    exec (.filtGetState .y2) s = .next (s.answeredWith s.filt.y2.bits)

/-- R124, R110: the table realization equals the direct one exactly at the grid points, whose axes run from 20 to
20000 Hz and from 0.2 to 5; and a configuration takes the realization it names (R111). This hardware's is the direct
one (log entries 9 and 15). -/
def Obligations.TableMeetsDirectAtGridPoints : Prop :=
  (∀ (cfg : Config) (f q : F32),
    (cfg.FILTER_REALIZATION = .direct → coefOf cfg f q = coefDirect cfg f q) ∧
    (cfg.FILTER_REALIZATION = .table → coefOf cfg f q = coefTable cfg f q)) ∧
  (∀ i j : Nat, i < 512 → j < 32 →
    coefTable Config.reference (gridF Config.reference i) (gridQ Config.reference j) =
      coefDirect Config.reference (gridF Config.reference i) (gridQ Config.reference j)) ∧
  gridF Config.reference 0 = F32.ofInt 20 ∧ gridF Config.reference 511 = F32.ofInt 20000 ∧
  gridQ Config.reference 0 = F32.ofRat 2 10 ∧ gridQ Config.reference 31 = F32.ofInt 5

/-! ### Envelopes -/

/-- R127, R128: attack and decay times are clamped to 0.001 .. 10 seconds. -/
def Obligations.EnvelopeTimesAreClamped : Prop :=
  ∀ (s : State) (v : F32), v.isNaN = false →
    exec (.envSetAttack .env0 v) s = .next (State.answeredWith
      { s with env0 := { s.env0 with attack := v.clamp (F32.ofRat 1 1000) (F32.ofInt 10) } } 0) ∧
    exec (.envSetAttack .env1 v) s = .next (State.answeredWith
      { s with env1 := { s.env1 with attack := v.clamp (F32.ofRat 1 1000) (F32.ofInt 10) } } 0) ∧
    exec (.envSetDecay .env0 v) s = .next (State.answeredWith
      { s with env0 := { s.env0 with decay := v.clamp (F32.ofRat 1 1000) (F32.ofInt 10) } } 0) ∧
    exec (.envSetDecay .env1 v) s = .next (State.answeredWith
      { s with env1 := { s.env1 with decay := v.clamp (F32.ofRat 1 1000) (F32.ofInt 10) } } 0)

/-- R125, R129: a trigger enters ATTACK with timer 0 from a zero output and with `OUT *f ATTACK` from another;
from output 0.5 and attack 1 the timer is 0.5. -/
def Obligations.TriggerSeedsTheTimer : Prop :=
  ∀ (s : State) (u : EnvSel),
    ((s.env u).out.eqv (F32.ofInt 0) = true → exec (.envTrigger u) s = .next (State.answeredWith
      (s.setEnv u { s.env u with stage := .attack, timer := ⟨0⟩ }) 0)) ∧
    ((s.env u).out.eqv (F32.ofInt 0) = false → exec (.envTrigger u) s = .next (State.answeredWith
      (s.setEnv u { s.env u with stage := .attack, timer := (s.env u).out.mul (s.env u).attack }) 0)) ∧
    ((s.env u).out = ⟨0x3F000000⟩ → (s.env u).attack = ⟨0x3F800000⟩ →
      exec (.envTrigger u) s = .next (State.answeredWith
        (s.setEnv u { s.env u with stage := .attack, timer := ⟨0x3F000000⟩ }) 0))

/-- R130, R131, R132, R133, R134: each envelope query responds its register. -/
def Obligations.EnvelopeQueriesReadTheirRegisters : Prop :=
  ∀ (s : State) (u : EnvSel),
    exec (.envGetAttack u) s = .next (s.answeredWith (s.env u).attack.bits) ∧
    exec (.envGetAttack u) State.reset = .next (State.reset.answeredWith 0x3C23D70A) ∧
    exec (.envGetDecay u) s = .next (s.answeredWith (s.env u).decay.bits) ∧
    exec (.envGetDecay u) State.reset = .next (State.reset.answeredWith 0x3F000000) ∧
    exec (.envGetOutput u) s = .next (s.answeredWith (s.env u).out.bits) ∧
    exec (.envGetOutput u) State.reset = .next (State.reset.answeredWith 0) ∧
    exec (.envGetStage u) s = .next (s.answeredWith
      (match (s.env u).stage with | .idle => 0 | .attack => 1 | .decay => 2)) ∧
    exec (.envGetTimer u) s = .next (s.answeredWith (s.env u).timer.bits)

/-- R135 item 1: in ATTACK, with the output at what the timer gives, the next output is not lower; in DECAY it
is not higher. -/
def Obligations.EnvelopeIsMonotoneWithinAStage : Prop :=
  ∀ e : Envelope, EnvelopeLegal e →
    (e.stage = .attack → e.out = e.timer.div e.attack → e.out.le (envProcess e).out = true) ∧
    (e.stage = .decay → e.out = (F32.ofInt 1).sub (e.timer.div e.decay) →
      (envProcess e).out.le e.out = true)

/-- R135 items 2 and 4, R22: after ENV_PROCESS the output is 0 exactly in IDLE, and entering IDLE it is +0. -/
def Obligations.EnvelopeOutputIsZeroExactlyInIdle : Prop :=
  ∀ e : Envelope, EnvelopeLegal e →
    ((envProcess e).out.eqv (F32.ofInt 0) = true ↔ (envProcess e).stage = .idle) ∧
    (e.stage ≠ .idle → (envProcess e).stage = .idle → (envProcess e).out = ⟨0⟩ ∧ (envProcess e).timer = ⟨0⟩)

/-! ### Engine -/

/-- R139, R140, R141 with R24, R142, R143: NOP and the engine's queries. -/
def Obligations.EngineQueriesReadTheStatus : Prop :=
  ∀ s : State,
    exec .nop s = .next (s.answeredWith 0) ∧
    exec .engGetId s = .next (s.answeredWith 0x50414331) ∧
    (∃ v : Word, v.getLsbD 0 = s.eng.play ∧ v.getLsbD 1 = s.eng.err ∧ v.getLsbD 2 = s.eng.lastTick ∧
      v.getLsbD 3 = s.eng.lastTrig ∧ (∀ i, 4 ≤ i → v.getLsbD i = false) ∧
      exec .engGetStatus s = .next (s.answeredWith v)) ∧
    (∃ v : Word, v.toNat = s.eng.errCode.toNat ∧ exec .engGetErrCode s = .next (s.answeredWith v)) ∧
    exec (.engGetOut .left) s = .next (s.answeredWith s.eng.outL.bits) ∧
    exec (.engGetOut .right) s = .next (s.answeredWith s.eng.outR.bits)

/-- R137, R138: TRANSPORT_START puts the three playheads on the last step, the phase one increment before the
end, and plays; TRANSPORT_STOP clears `PLAY` and nothing else. -/
def Obligations.TransportCommandsStartAndStop : Prop :=
  ∀ s : State,
    (ControlLegal s → ∃ (c0 c1 cp : BitVec 16) (ph : BitVec 48),
      c0.toNat = s.trig0.len.toNat - 1 ∧ c1.toNat = s.trig1.len.toNat - 1 ∧
      cp.toNat = s.pitch.len.toNat - 1 ∧ ph.toNat = (2 ^ 48 - s.clk.inc.toNat) % 2 ^ 48 ∧
      exec .transportStart s = .next (State.answeredWith
        { s with
          trig0 := { s.trig0 with cur := c0 }
          trig1 := { s.trig1 with cur := c1 }
          pitch := { s.pitch with cur := cp }
          clk := { s.clk with phase := ph }
          eng := { s.eng with play := true } } 0)) ∧
    exec .transportStop s = .next (State.answeredWith { s with eng := { s.eng with play := false } } 0)

/-- R136: with `PLAY` 0 a sample step delivers (+0.0, +0.0), writes the output pair and the two flags, and
freezes everything else. -/
def Obligations.StoppedSampleIsSilentAndFreezes : Prop :=
  ∀ s : State, s.eng.play = false →
    sampleStep s = { s with
      eng := { s.eng with lastTick := false, lastTrig := false, outL := ⟨0⟩, outR := ⟨0⟩ }
      audioOut := s.audioOut ++ [{ left := ⟨0⟩, right := ⟨0⟩ }] }

/-- R136, R126, R111, R109, R99, R98, R112: the synthesis of a playing sample step that does not trigger, spelled
out: both envelopes, the modulation, the recompute, the oscillator of every mode, the Direct Form I filter, and
one mono value on both channels. -/
def Obligations.PlayingSampleSynthesizes : Prop :=
  ∀ s : State, s.eng.play = true → (sampleStep s).eng.lastTrig = false →
    Synthesized s.osc s.env0 s.env1 s (sampleStep s)

/-- R136, R125, R97, R67: a playing sample step that triggers restarts both envelopes from their levels and takes
the pitch track's frequency, and then synthesizes from these as any other does. -/
def Obligations.TriggeringSampleRestartsTheVoice : Prop :=
  ∀ s : State, s.eng.play = true → (sampleStep s).eng.lastTrig = true →
    let t := sampleStep s
    ∃ (o : Oscillator) (e0 e1 : Envelope),
      TunedTo (noteToHz Config.reference (t.pitch.noteAt t.pitch.cur.toNat + t.pitch.transpose.toInt)) s.osc o ∧
      EnvTriggered s.env0 e0 ∧ EnvTriggered s.env1 e1 ∧ Synthesized o e0 e1 s t

/-- R145, R137: with step 0 of TRIG0 active, the sample step right after TRANSPORT_START ticks, lands all three
playheads on step 0, triggers, and takes both envelopes out of IDLE. -/
def Obligations.FirstSampleAfterStartTriggers : Prop :=
  ∀ s t : State, ControlLegal s → s.trig0.stepActive 0 = true → exec .transportStart s = .next t →
    let u := sampleStep t
    u.eng.lastTick = true ∧ u.eng.lastTrig = true ∧ u.trig0.cur = 0 ∧ u.trig1.cur = 0 ∧ u.pitch.cur = 0 ∧
    u.env0.stage ≠ .idle ∧ u.env1.stage ≠ .idle
end

