-- ==== Sys2Proof/Laws/Config.lean ====
section
/-! SUPPORT. The reference configuration (R4): its parameters, field by field, so that no proof unfolds it; that it
is legal; and that the machine of `exec`, `step` and `State.reset` is the general one in this configuration. -/

namespace Sys2Proof.Machine

open Sys2Proof

@[simp] theorem reference_SR : Config.reference.SR = 48000 := rfl
@[simp] theorem reference_N_MAX : Config.reference.N_MAX = 64 := rfl
@[simp] theorem reference_PHASE_BITS : Config.reference.PHASE_BITS = 48 := rfl
@[simp] theorem reference_MULT_TABLE : Config.reference.MULT_TABLE = referenceMultipliers := rfl
@[simp] theorem reference_MULT_UNITY : Config.reference.MULT_UNITY = 4 := rfl
@[simp] theorem reference_SCALE_TABLE : Config.reference.SCALE_TABLE = referenceScales := rfl
@[simp] theorem reference_NUM_SCALES : Config.reference.NUM_SCALES = 10 := rfl
@[simp] theorem reference_ROOT_NOTE : Config.reference.ROOT_NOTE = 69 := rfl
@[simp] theorem reference_ROOT_HZ : Config.reference.ROOT_HZ = F32.ofInt 440 := rfl
@[simp] theorem reference_NOTE_MIN : Config.reference.NOTE_MIN = 0 := rfl
@[simp] theorem reference_NOTE_MAX : Config.reference.NOTE_MAX = 127 := rfl
@[simp] theorem reference_DEFAULT_NOTE : Config.reference.DEFAULT_NOTE = 60 := rfl
@[simp] theorem reference_TRANSPOSE_MIN : Config.reference.TRANSPOSE_MIN = -64 := rfl
@[simp] theorem reference_TRANSPOSE_MAX : Config.reference.TRANSPOSE_MAX = 64 := rfl
@[simp] theorem reference_FILTER_REALIZATION : Config.reference.FILTER_REALIZATION = .direct := rfl
@[simp] theorem reference_NF : Config.reference.NF = 512 := rfl
@[simp] theorem reference_NQ : Config.reference.NQ = 32 := rfl
@[simp] theorem reference_ENV_EPS : Config.reference.ENV_EPS = ⟨0x38D1B717⟩ := rfl
@[simp] theorem reference_COS : Config.reference.COS = F32.cos := rfl
@[simp] theorem reference_SIN : Config.reference.SIN = F32.sin := rfl
@[simp] theorem reference_EXP2 : Config.reference.EXP2 = F32.exp2 := rfl
@[simp] theorem reference_BYTE_ORDER : Config.reference.BYTE_ORDER = .littleEndian := rfl

/-- The reference configuration meets what R4 and the registers ask of the parameters. -/
theorem reference_legal : Config.reference.Legal := by
  constructor <;> decide

/-- The derived constants of R4 at the reference sample rate. -/
theorem srF32_reference : srF32 Config.reference = F32.ofInt 48000 := rfl

@[inherit_doc srF32_reference]
theorem nyqF32_reference : nyqF32 Config.reference = F32.ofInt 24000 := by decide +kernel

@[inherit_doc srF32_reference]
theorem invSr_reference : invSr Config.reference = ⟨0x37AEC33E⟩ := by decide +kernel

/-- The realization this hardware takes (R4, R111). -/
theorem coefOf_reference (f q : F32) : coefOf Config.reference f q = coefDirect Config.reference f q := rfl

/-- `exec` performs an instruction as the machine of the reference configuration does. -/
theorem execIn_reference (i : Instr) (s : State) : execIn i s = exec i s := by
  cases i <;> rfl

/-- The step of this hardware is the general one in the reference configuration. -/
theorem stepIn_reference (s : State) : stepIn s = step s := by
  have h : execIn = exec := funext fun i => funext (execIn_reference i)
  unfold stepIn step
  rw [h]

/-- The reset state of this hardware, as 10_state.md writes it out, is what the rules of R160 give in the reference
configuration. -/
theorem resetIn_reference : State.resetIn Config.reference = State.reset := by
  decide +kernel

end Sys2Proof.Machine
end

