-- ==== Sys2Proof/Laws/Quantizer.lean ====
section
/-! SUPPORT. The upward scan of QUANTIZE and what it finds. -/

namespace Sys2Proof.Machine

open Sys2Proof

variable {cfg : Config}

/-- In a legal configuration a scale index in its range reads a row of twelve slots, degree 0 among them (R17). -/
theorem row_of_legal (hc : cfg.Legal) (q : Quantizer cfg) (h : q.scale.toNat < cfg.NUM_SCALES) :
    ∃ row, cfg.SCALE_TABLE[q.scale.toNat]? = some row ∧ row.length = 12 ∧ 0 ∈ row := by
  have hl : q.scale.toNat < cfg.SCALE_TABLE.length := by rw [hc.scales.1]; exact h
  have hr := hc.degrees _ (List.getElem_mem hl)
  exact ⟨_, List.getElem?_eq_getElem hl, hr.1, hr.2.1⟩

/-- `inScale` decides `NoteInScale` (R83). -/
theorem inScale_iff (hc : cfg.Legal) (q : Quantizer cfg) (m : Int) (h : q.scale.toNat < cfg.NUM_SCALES) :
    inScale q m = true ↔ NoteInScale q m := by
  obtain ⟨row, h1, h2, -⟩ := row_of_legal hc q h
  unfold inScale NoteInScale scaleRow degreeOf
  rw [h1]
  simp only [Option.getD_some, List.contains_iff_mem, Option.some.injEq, exists_eq_left', List.mem_iff_getElem?]
  constructor
  · rintro ⟨j, hj⟩
    refine ⟨j, ?_, hj⟩
    rw [← h2]
    exact (List.getElem?_eq_some_iff.1 hj).1
  · rintro ⟨j, -, hj⟩
    exact ⟨j, hj⟩

/-- The scan passes no note in scale, and goes no further than one it knows of within its steps. -/
theorem quantizeFrom_spec (q : Quantizer cfg) (k : Nat) (c : Int) (j : Nat) (hj : j < k)
    (h : inScale q (c + j) = true) :
    c ≤ quantizeFrom q k c ∧ quantizeFrom q k c ≤ c + j ∧ inScale q (quantizeFrom q k c) = true ∧
      ∀ m, c ≤ m → m < quantizeFrom q k c → inScale q m = false := by
  induction k generalizing c j with
  | zero => omega
  | succ k ih =>
    unfold quantizeFrom
    by_cases hc : inScale q c = true
    · rw [if_pos hc]
      exact ⟨le_rfl, by omega, hc, fun m h1 h2 => by omega⟩
    · rw [if_neg hc]
      cases j with
      | zero => exact absurd (by simpa using h) hc
      | succ j =>
        have h' : inScale q (c + 1 + (j : Int)) = true := by
          rw [← h]
          congr 1
          push_cast
          ring
        obtain ⟨h1, h2, h3, h4⟩ := ih (c + 1) j (by omega) h'
        refine ⟨by omega, by push_cast; omega, h3, fun m hm1 hm2 => ?_⟩
        rcases eq_or_lt_of_le hm1 with rfl | hm
        · simpa using hc
        · exact h4 m (by omega) hm2

/-- No gap of the ten scales is longer than three semitones (R82). -/
theorem scale_gap (q : Quantizer) (n : Int) (h : q.scale.toNat < 10) :
    ∃ j : Nat, j ≤ 2 ∧ inScale q (n + j) = true := by
  have hr : ∀ k, k < 10 → ∀ d, d < 12 → ∃ j, j < 3 ∧
      ((referenceScales[k]?).getD []).contains ((d + j) % 12) = true := by decide
  obtain ⟨j, h1, h2⟩ := hr _ h (degreeOf q n) (by unfold degreeOf; omega)
  refine ⟨j, by omega, ?_⟩
  unfold inScale scaleRow
  have e : degreeOf q (n + (j : Int)) = (degreeOf q n + j) % 12 := by unfold degreeOf; omega
  rw [e]
  exact h2

/-- In a legal configuration a note in scale is less than an octave above any note, so QUANTIZE finds one (R84). -/
theorem quantize_le (hc : cfg.Legal) (q : Quantizer cfg) (n : Int) (h : q.scale.toNat < cfg.NUM_SCALES) :
    n ≤ quantize q n ∧ quantize q n ≤ n + 11 := by
  obtain ⟨row, h1, -, h3⟩ := row_of_legal hc q h
  have h0 : inScale q (n + ((q.key.toNat - n) % 12).toNat) = true := by
    unfold inScale scaleRow degreeOf
    rw [h1, Option.getD_some, List.contains_iff_mem]
    have e : ((n + ((q.key.toNat - n) % 12).toNat - q.key.toNat) % 12).toNat = 0 := by omega
    rw [e]
    exact h3
  have := quantizeFrom_spec q 12 n _ (by omega) h0
  exact ⟨this.1, by have := this.2.1; unfold quantize; omega⟩

/-- The names repeat with the octave because the note counts modulo 12 (R86). -/
theorem noteToName_emod (m : Int) : noteToName m = noteToName (m % 12) := by
  unfold noteToName
  rw [Int.emod_emod]

/-- QUANTIZE never goes down and never goes up by more than an octave, whatever the registers hold. -/
theorem quantize_range (q : Quantizer cfg) (n : Int) : n ≤ quantize q n ∧ quantize q n ≤ n + 12 := by
  have h : ∀ k c, c ≤ quantizeFrom q k c ∧ quantizeFrom q k c ≤ c + (k : Nat) := by
    intro k
    induction k with
    | zero => intro c; simp [quantizeFrom]
    | succ k ih =>
      intro c
      have := ih (c + 1)
      unfold quantizeFrom
      split <;> push_cast <;> omega
  exact h 12 n

theorem badNote_eq_false_iff (n : Int) : badNote Config.reference n = false ↔ 0 ≤ n ∧ n ≤ 127 := by
  unfold badNote
  simp only [Bool.or_eq_false_iff, decide_eq_false_iff_not, not_lt]

theorem badNote_eq_true_iff (n : Int) : badNote Config.reference n = true ↔ n < 0 ∨ 127 < n := by
  unfold badNote
  simp only [Bool.or_eq_true, decide_eq_true_eq]

/-- The response pattern of an integer in range reads back as the integer (R46). -/
theorem toInt_patternOfInt (n : Int) (h1 : -(2 ^ 31) ≤ n) (h2 : n < 2 ^ 31) : (patternOfInt n).toInt = n := by
  unfold patternOfInt
  rw [BitVec.toInt_ofInt]
  simp only [Int.bmod]
  split <;> omega

theorem toNat_zext32 {w : Nat} (v : BitVec w) (h : w ≤ 32) : (zext32 v).toNat = v.toNat := by
  have h1 := v.isLt
  have h2 : 2 ^ w ≤ 2 ^ 32 := Nat.pow_le_pow_right (by omega) h
  unfold zext32
  rw [BitVec.toNat_ofNat]
  omega

end Sys2Proof.Machine
end

