-- ==== Sys2Proof/Laws/State.lean ====
section
/-! SUPPORT. One lemma per field of State per update of State, so that no proof unfolds a record update. -/

namespace Sys2Proof.Machine

open Sys2Proof

variable {cfg : Config} (s : State cfg)

/-! `State.setClk` replaces `clk` and nothing else. -/

@[simp] theorem State.setClk_clk (c : Clock cfg) : (s.setClk c).clk = c := rfl
@[simp] theorem State.setClk_trig0 (c : Clock cfg) : (s.setClk c).trig0 = s.trig0 := rfl
@[simp] theorem State.setClk_trig1 (c : Clock cfg) : (s.setClk c).trig1 = s.trig1 := rfl
@[simp] theorem State.setClk_pitch (c : Clock cfg) : (s.setClk c).pitch = s.pitch := rfl
@[simp] theorem State.setClk_quant (c : Clock cfg) : (s.setClk c).quant = s.quant := rfl
@[simp] theorem State.setClk_osc (c : Clock cfg) : (s.setClk c).osc = s.osc := rfl
@[simp] theorem State.setClk_filt (c : Clock cfg) : (s.setClk c).filt = s.filt := rfl
@[simp] theorem State.setClk_env0 (c : Clock cfg) : (s.setClk c).env0 = s.env0 := rfl
@[simp] theorem State.setClk_env1 (c : Clock cfg) : (s.setClk c).env1 = s.env1 := rfl
@[simp] theorem State.setClk_eng (c : Clock cfg) : (s.setClk c).eng = s.eng := rfl
@[simp] theorem State.setClk_inputs (c : Clock cfg) : (s.setClk c).inputs = s.inputs := rfl
@[simp] theorem State.setClk_responses (c : Clock cfg) : (s.setClk c).responses = s.responses := rfl
@[simp] theorem State.setClk_audioOut (c : Clock cfg) : (s.setClk c).audioOut = s.audioOut := rfl

/-! `State.setTrig0` replaces `trig0` and nothing else. -/

@[simp] theorem State.setTrig0_clk (k : TrigTrack cfg) : (s.setTrig0 k).clk = s.clk := rfl
@[simp] theorem State.setTrig0_trig0 (k : TrigTrack cfg) : (s.setTrig0 k).trig0 = k := rfl
@[simp] theorem State.setTrig0_trig1 (k : TrigTrack cfg) : (s.setTrig0 k).trig1 = s.trig1 := rfl
@[simp] theorem State.setTrig0_pitch (k : TrigTrack cfg) : (s.setTrig0 k).pitch = s.pitch := rfl
@[simp] theorem State.setTrig0_quant (k : TrigTrack cfg) : (s.setTrig0 k).quant = s.quant := rfl
@[simp] theorem State.setTrig0_osc (k : TrigTrack cfg) : (s.setTrig0 k).osc = s.osc := rfl
@[simp] theorem State.setTrig0_filt (k : TrigTrack cfg) : (s.setTrig0 k).filt = s.filt := rfl
@[simp] theorem State.setTrig0_env0 (k : TrigTrack cfg) : (s.setTrig0 k).env0 = s.env0 := rfl
@[simp] theorem State.setTrig0_env1 (k : TrigTrack cfg) : (s.setTrig0 k).env1 = s.env1 := rfl
@[simp] theorem State.setTrig0_eng (k : TrigTrack cfg) : (s.setTrig0 k).eng = s.eng := rfl
@[simp] theorem State.setTrig0_inputs (k : TrigTrack cfg) : (s.setTrig0 k).inputs = s.inputs := rfl
@[simp] theorem State.setTrig0_responses (k : TrigTrack cfg) : (s.setTrig0 k).responses = s.responses := rfl
@[simp] theorem State.setTrig0_audioOut (k : TrigTrack cfg) : (s.setTrig0 k).audioOut = s.audioOut := rfl

/-! `State.setTrig1` replaces `trig1` and nothing else. -/

@[simp] theorem State.setTrig1_clk (k : TrigTrack cfg) : (s.setTrig1 k).clk = s.clk := rfl
@[simp] theorem State.setTrig1_trig0 (k : TrigTrack cfg) : (s.setTrig1 k).trig0 = s.trig0 := rfl
@[simp] theorem State.setTrig1_trig1 (k : TrigTrack cfg) : (s.setTrig1 k).trig1 = k := rfl
@[simp] theorem State.setTrig1_pitch (k : TrigTrack cfg) : (s.setTrig1 k).pitch = s.pitch := rfl
@[simp] theorem State.setTrig1_quant (k : TrigTrack cfg) : (s.setTrig1 k).quant = s.quant := rfl
@[simp] theorem State.setTrig1_osc (k : TrigTrack cfg) : (s.setTrig1 k).osc = s.osc := rfl
@[simp] theorem State.setTrig1_filt (k : TrigTrack cfg) : (s.setTrig1 k).filt = s.filt := rfl
@[simp] theorem State.setTrig1_env0 (k : TrigTrack cfg) : (s.setTrig1 k).env0 = s.env0 := rfl
@[simp] theorem State.setTrig1_env1 (k : TrigTrack cfg) : (s.setTrig1 k).env1 = s.env1 := rfl
@[simp] theorem State.setTrig1_eng (k : TrigTrack cfg) : (s.setTrig1 k).eng = s.eng := rfl
@[simp] theorem State.setTrig1_inputs (k : TrigTrack cfg) : (s.setTrig1 k).inputs = s.inputs := rfl
@[simp] theorem State.setTrig1_responses (k : TrigTrack cfg) : (s.setTrig1 k).responses = s.responses := rfl
@[simp] theorem State.setTrig1_audioOut (k : TrigTrack cfg) : (s.setTrig1 k).audioOut = s.audioOut := rfl

/-! `State.setPitch` replaces `pitch` and nothing else. -/

@[simp] theorem State.setPitch_clk (k : PitchTrack cfg) : (s.setPitch k).clk = s.clk := rfl
@[simp] theorem State.setPitch_trig0 (k : PitchTrack cfg) : (s.setPitch k).trig0 = s.trig0 := rfl
@[simp] theorem State.setPitch_trig1 (k : PitchTrack cfg) : (s.setPitch k).trig1 = s.trig1 := rfl
@[simp] theorem State.setPitch_pitch (k : PitchTrack cfg) : (s.setPitch k).pitch = k := rfl
@[simp] theorem State.setPitch_quant (k : PitchTrack cfg) : (s.setPitch k).quant = s.quant := rfl
@[simp] theorem State.setPitch_osc (k : PitchTrack cfg) : (s.setPitch k).osc = s.osc := rfl
@[simp] theorem State.setPitch_filt (k : PitchTrack cfg) : (s.setPitch k).filt = s.filt := rfl
@[simp] theorem State.setPitch_env0 (k : PitchTrack cfg) : (s.setPitch k).env0 = s.env0 := rfl
@[simp] theorem State.setPitch_env1 (k : PitchTrack cfg) : (s.setPitch k).env1 = s.env1 := rfl
@[simp] theorem State.setPitch_eng (k : PitchTrack cfg) : (s.setPitch k).eng = s.eng := rfl
@[simp] theorem State.setPitch_inputs (k : PitchTrack cfg) : (s.setPitch k).inputs = s.inputs := rfl
@[simp] theorem State.setPitch_responses (k : PitchTrack cfg) : (s.setPitch k).responses = s.responses := rfl
@[simp] theorem State.setPitch_audioOut (k : PitchTrack cfg) : (s.setPitch k).audioOut = s.audioOut := rfl

/-! `State.setQuant` replaces `quant` and nothing else. -/

@[simp] theorem State.setQuant_clk (q : Quantizer cfg) : (s.setQuant q).clk = s.clk := rfl
@[simp] theorem State.setQuant_trig0 (q : Quantizer cfg) : (s.setQuant q).trig0 = s.trig0 := rfl
@[simp] theorem State.setQuant_trig1 (q : Quantizer cfg) : (s.setQuant q).trig1 = s.trig1 := rfl
@[simp] theorem State.setQuant_pitch (q : Quantizer cfg) : (s.setQuant q).pitch = s.pitch := rfl
@[simp] theorem State.setQuant_quant (q : Quantizer cfg) : (s.setQuant q).quant = q := rfl
@[simp] theorem State.setQuant_osc (q : Quantizer cfg) : (s.setQuant q).osc = s.osc := rfl
@[simp] theorem State.setQuant_filt (q : Quantizer cfg) : (s.setQuant q).filt = s.filt := rfl
@[simp] theorem State.setQuant_env0 (q : Quantizer cfg) : (s.setQuant q).env0 = s.env0 := rfl
@[simp] theorem State.setQuant_env1 (q : Quantizer cfg) : (s.setQuant q).env1 = s.env1 := rfl
@[simp] theorem State.setQuant_eng (q : Quantizer cfg) : (s.setQuant q).eng = s.eng := rfl
@[simp] theorem State.setQuant_inputs (q : Quantizer cfg) : (s.setQuant q).inputs = s.inputs := rfl
@[simp] theorem State.setQuant_responses (q : Quantizer cfg) : (s.setQuant q).responses = s.responses := rfl
@[simp] theorem State.setQuant_audioOut (q : Quantizer cfg) : (s.setQuant q).audioOut = s.audioOut := rfl

/-! `State.setOsc` replaces `osc` and nothing else. -/

@[simp] theorem State.setOsc_clk (o : Oscillator cfg) : (s.setOsc o).clk = s.clk := rfl
@[simp] theorem State.setOsc_trig0 (o : Oscillator cfg) : (s.setOsc o).trig0 = s.trig0 := rfl
@[simp] theorem State.setOsc_trig1 (o : Oscillator cfg) : (s.setOsc o).trig1 = s.trig1 := rfl
@[simp] theorem State.setOsc_pitch (o : Oscillator cfg) : (s.setOsc o).pitch = s.pitch := rfl
@[simp] theorem State.setOsc_quant (o : Oscillator cfg) : (s.setOsc o).quant = s.quant := rfl
@[simp] theorem State.setOsc_osc (o : Oscillator cfg) : (s.setOsc o).osc = o := rfl
@[simp] theorem State.setOsc_filt (o : Oscillator cfg) : (s.setOsc o).filt = s.filt := rfl
@[simp] theorem State.setOsc_env0 (o : Oscillator cfg) : (s.setOsc o).env0 = s.env0 := rfl
@[simp] theorem State.setOsc_env1 (o : Oscillator cfg) : (s.setOsc o).env1 = s.env1 := rfl
@[simp] theorem State.setOsc_eng (o : Oscillator cfg) : (s.setOsc o).eng = s.eng := rfl
@[simp] theorem State.setOsc_inputs (o : Oscillator cfg) : (s.setOsc o).inputs = s.inputs := rfl
@[simp] theorem State.setOsc_responses (o : Oscillator cfg) : (s.setOsc o).responses = s.responses := rfl
@[simp] theorem State.setOsc_audioOut (o : Oscillator cfg) : (s.setOsc o).audioOut = s.audioOut := rfl

/-! `State.setFilt` replaces `filt` and nothing else. -/

@[simp] theorem State.setFilt_clk (f : FilterUnit cfg) : (s.setFilt f).clk = s.clk := rfl
@[simp] theorem State.setFilt_trig0 (f : FilterUnit cfg) : (s.setFilt f).trig0 = s.trig0 := rfl
@[simp] theorem State.setFilt_trig1 (f : FilterUnit cfg) : (s.setFilt f).trig1 = s.trig1 := rfl
@[simp] theorem State.setFilt_pitch (f : FilterUnit cfg) : (s.setFilt f).pitch = s.pitch := rfl
@[simp] theorem State.setFilt_quant (f : FilterUnit cfg) : (s.setFilt f).quant = s.quant := rfl
@[simp] theorem State.setFilt_osc (f : FilterUnit cfg) : (s.setFilt f).osc = s.osc := rfl
@[simp] theorem State.setFilt_filt (f : FilterUnit cfg) : (s.setFilt f).filt = f := rfl
@[simp] theorem State.setFilt_env0 (f : FilterUnit cfg) : (s.setFilt f).env0 = s.env0 := rfl
@[simp] theorem State.setFilt_env1 (f : FilterUnit cfg) : (s.setFilt f).env1 = s.env1 := rfl
@[simp] theorem State.setFilt_eng (f : FilterUnit cfg) : (s.setFilt f).eng = s.eng := rfl
@[simp] theorem State.setFilt_inputs (f : FilterUnit cfg) : (s.setFilt f).inputs = s.inputs := rfl
@[simp] theorem State.setFilt_responses (f : FilterUnit cfg) : (s.setFilt f).responses = s.responses := rfl
@[simp] theorem State.setFilt_audioOut (f : FilterUnit cfg) : (s.setFilt f).audioOut = s.audioOut := rfl

/-! `State.setEnv0` replaces `env0` and nothing else. -/

@[simp] theorem State.setEnv0_clk (e : Envelope cfg) : (s.setEnv0 e).clk = s.clk := rfl
@[simp] theorem State.setEnv0_trig0 (e : Envelope cfg) : (s.setEnv0 e).trig0 = s.trig0 := rfl
@[simp] theorem State.setEnv0_trig1 (e : Envelope cfg) : (s.setEnv0 e).trig1 = s.trig1 := rfl
@[simp] theorem State.setEnv0_pitch (e : Envelope cfg) : (s.setEnv0 e).pitch = s.pitch := rfl
@[simp] theorem State.setEnv0_quant (e : Envelope cfg) : (s.setEnv0 e).quant = s.quant := rfl
@[simp] theorem State.setEnv0_osc (e : Envelope cfg) : (s.setEnv0 e).osc = s.osc := rfl
@[simp] theorem State.setEnv0_filt (e : Envelope cfg) : (s.setEnv0 e).filt = s.filt := rfl
@[simp] theorem State.setEnv0_env0 (e : Envelope cfg) : (s.setEnv0 e).env0 = e := rfl
@[simp] theorem State.setEnv0_env1 (e : Envelope cfg) : (s.setEnv0 e).env1 = s.env1 := rfl
@[simp] theorem State.setEnv0_eng (e : Envelope cfg) : (s.setEnv0 e).eng = s.eng := rfl
@[simp] theorem State.setEnv0_inputs (e : Envelope cfg) : (s.setEnv0 e).inputs = s.inputs := rfl
@[simp] theorem State.setEnv0_responses (e : Envelope cfg) : (s.setEnv0 e).responses = s.responses := rfl
@[simp] theorem State.setEnv0_audioOut (e : Envelope cfg) : (s.setEnv0 e).audioOut = s.audioOut := rfl

/-! `State.setEnv1` replaces `env1` and nothing else. -/

@[simp] theorem State.setEnv1_clk (e : Envelope cfg) : (s.setEnv1 e).clk = s.clk := rfl
@[simp] theorem State.setEnv1_trig0 (e : Envelope cfg) : (s.setEnv1 e).trig0 = s.trig0 := rfl
@[simp] theorem State.setEnv1_trig1 (e : Envelope cfg) : (s.setEnv1 e).trig1 = s.trig1 := rfl
@[simp] theorem State.setEnv1_pitch (e : Envelope cfg) : (s.setEnv1 e).pitch = s.pitch := rfl
@[simp] theorem State.setEnv1_quant (e : Envelope cfg) : (s.setEnv1 e).quant = s.quant := rfl
@[simp] theorem State.setEnv1_osc (e : Envelope cfg) : (s.setEnv1 e).osc = s.osc := rfl
@[simp] theorem State.setEnv1_filt (e : Envelope cfg) : (s.setEnv1 e).filt = s.filt := rfl
@[simp] theorem State.setEnv1_env0 (e : Envelope cfg) : (s.setEnv1 e).env0 = s.env0 := rfl
@[simp] theorem State.setEnv1_env1 (e : Envelope cfg) : (s.setEnv1 e).env1 = e := rfl
@[simp] theorem State.setEnv1_eng (e : Envelope cfg) : (s.setEnv1 e).eng = s.eng := rfl
@[simp] theorem State.setEnv1_inputs (e : Envelope cfg) : (s.setEnv1 e).inputs = s.inputs := rfl
@[simp] theorem State.setEnv1_responses (e : Envelope cfg) : (s.setEnv1 e).responses = s.responses := rfl
@[simp] theorem State.setEnv1_audioOut (e : Envelope cfg) : (s.setEnv1 e).audioOut = s.audioOut := rfl

/-! `State.setEng` replaces `eng` and nothing else. -/

@[simp] theorem State.setEng_clk (g : Engine) : (s.setEng g).clk = s.clk := rfl
@[simp] theorem State.setEng_trig0 (g : Engine) : (s.setEng g).trig0 = s.trig0 := rfl
@[simp] theorem State.setEng_trig1 (g : Engine) : (s.setEng g).trig1 = s.trig1 := rfl
@[simp] theorem State.setEng_pitch (g : Engine) : (s.setEng g).pitch = s.pitch := rfl
@[simp] theorem State.setEng_quant (g : Engine) : (s.setEng g).quant = s.quant := rfl
@[simp] theorem State.setEng_osc (g : Engine) : (s.setEng g).osc = s.osc := rfl
@[simp] theorem State.setEng_filt (g : Engine) : (s.setEng g).filt = s.filt := rfl
@[simp] theorem State.setEng_env0 (g : Engine) : (s.setEng g).env0 = s.env0 := rfl
@[simp] theorem State.setEng_env1 (g : Engine) : (s.setEng g).env1 = s.env1 := rfl
@[simp] theorem State.setEng_eng (g : Engine) : (s.setEng g).eng = g := rfl
@[simp] theorem State.setEng_inputs (g : Engine) : (s.setEng g).inputs = s.inputs := rfl
@[simp] theorem State.setEng_responses (g : Engine) : (s.setEng g).responses = s.responses := rfl
@[simp] theorem State.setEng_audioOut (g : Engine) : (s.setEng g).audioOut = s.audioOut := rfl

/-! `State.setInputs` replaces `inputs` and nothing else. -/

@[simp] theorem State.setInputs_clk (es : List Event) : (s.setInputs es).clk = s.clk := rfl
@[simp] theorem State.setInputs_trig0 (es : List Event) : (s.setInputs es).trig0 = s.trig0 := rfl
@[simp] theorem State.setInputs_trig1 (es : List Event) : (s.setInputs es).trig1 = s.trig1 := rfl
@[simp] theorem State.setInputs_pitch (es : List Event) : (s.setInputs es).pitch = s.pitch := rfl
@[simp] theorem State.setInputs_quant (es : List Event) : (s.setInputs es).quant = s.quant := rfl
@[simp] theorem State.setInputs_osc (es : List Event) : (s.setInputs es).osc = s.osc := rfl
@[simp] theorem State.setInputs_filt (es : List Event) : (s.setInputs es).filt = s.filt := rfl
@[simp] theorem State.setInputs_env0 (es : List Event) : (s.setInputs es).env0 = s.env0 := rfl
@[simp] theorem State.setInputs_env1 (es : List Event) : (s.setInputs es).env1 = s.env1 := rfl
@[simp] theorem State.setInputs_eng (es : List Event) : (s.setInputs es).eng = s.eng := rfl
@[simp] theorem State.setInputs_inputs (es : List Event) : (s.setInputs es).inputs = es := rfl
@[simp] theorem State.setInputs_responses (es : List Event) : (s.setInputs es).responses = s.responses := rfl
@[simp] theorem State.setInputs_audioOut (es : List Event) : (s.setInputs es).audioOut = s.audioOut := rfl

/-! `State.respond` adds to `responses` and changes nothing else. -/

@[simp] theorem State.respond_clk (r : Response) : (s.respond r).clk = s.clk := rfl
@[simp] theorem State.respond_trig0 (r : Response) : (s.respond r).trig0 = s.trig0 := rfl
@[simp] theorem State.respond_trig1 (r : Response) : (s.respond r).trig1 = s.trig1 := rfl
@[simp] theorem State.respond_pitch (r : Response) : (s.respond r).pitch = s.pitch := rfl
@[simp] theorem State.respond_quant (r : Response) : (s.respond r).quant = s.quant := rfl
@[simp] theorem State.respond_osc (r : Response) : (s.respond r).osc = s.osc := rfl
@[simp] theorem State.respond_filt (r : Response) : (s.respond r).filt = s.filt := rfl
@[simp] theorem State.respond_env0 (r : Response) : (s.respond r).env0 = s.env0 := rfl
@[simp] theorem State.respond_env1 (r : Response) : (s.respond r).env1 = s.env1 := rfl
@[simp] theorem State.respond_eng (r : Response) : (s.respond r).eng = s.eng := rfl
@[simp] theorem State.respond_inputs (r : Response) : (s.respond r).inputs = s.inputs := rfl
@[simp] theorem State.respond_responses (r : Response) : (s.respond r).responses = s.responses ++ [r] := rfl
@[simp] theorem State.respond_audioOut (r : Response) : (s.respond r).audioOut = s.audioOut := rfl

/-! `State.deliver` adds to `audioOut` and changes nothing else. -/

@[simp] theorem State.deliver_clk (p : StereoPair) : (s.deliver p).clk = s.clk := rfl
@[simp] theorem State.deliver_trig0 (p : StereoPair) : (s.deliver p).trig0 = s.trig0 := rfl
@[simp] theorem State.deliver_trig1 (p : StereoPair) : (s.deliver p).trig1 = s.trig1 := rfl
@[simp] theorem State.deliver_pitch (p : StereoPair) : (s.deliver p).pitch = s.pitch := rfl
@[simp] theorem State.deliver_quant (p : StereoPair) : (s.deliver p).quant = s.quant := rfl
@[simp] theorem State.deliver_osc (p : StereoPair) : (s.deliver p).osc = s.osc := rfl
@[simp] theorem State.deliver_filt (p : StereoPair) : (s.deliver p).filt = s.filt := rfl
@[simp] theorem State.deliver_env0 (p : StereoPair) : (s.deliver p).env0 = s.env0 := rfl
@[simp] theorem State.deliver_env1 (p : StereoPair) : (s.deliver p).env1 = s.env1 := rfl
@[simp] theorem State.deliver_eng (p : StereoPair) : (s.deliver p).eng = s.eng := rfl
@[simp] theorem State.deliver_inputs (p : StereoPair) : (s.deliver p).inputs = s.inputs := rfl
@[simp] theorem State.deliver_responses (p : StereoPair) : (s.deliver p).responses = s.responses := rfl
@[simp] theorem State.deliver_audioOut (p : StereoPair) : (s.deliver p).audioOut = s.audioOut ++ [p] := rfl

/-! `State.answer` adds to `responses` and changes nothing else. -/

@[simp] theorem State.answer_clk (v : Word) : (s.answer v).clk = s.clk := rfl
@[simp] theorem State.answer_trig0 (v : Word) : (s.answer v).trig0 = s.trig0 := rfl
@[simp] theorem State.answer_trig1 (v : Word) : (s.answer v).trig1 = s.trig1 := rfl
@[simp] theorem State.answer_pitch (v : Word) : (s.answer v).pitch = s.pitch := rfl
@[simp] theorem State.answer_quant (v : Word) : (s.answer v).quant = s.quant := rfl
@[simp] theorem State.answer_osc (v : Word) : (s.answer v).osc = s.osc := rfl
@[simp] theorem State.answer_filt (v : Word) : (s.answer v).filt = s.filt := rfl
@[simp] theorem State.answer_env0 (v : Word) : (s.answer v).env0 = s.env0 := rfl
@[simp] theorem State.answer_env1 (v : Word) : (s.answer v).env1 = s.env1 := rfl
@[simp] theorem State.answer_eng (v : Word) : (s.answer v).eng = s.eng := rfl
@[simp] theorem State.answer_inputs (v : Word) : (s.answer v).inputs = s.inputs := rfl
@[simp] theorem State.answer_responses (v : Word) : (s.answer v).responses = s.responses ++ [{ status := 0, data := v }] := rfl
@[simp] theorem State.answer_audioOut (v : Word) : (s.answer v).audioOut = s.audioOut := rfl

/-! `State.answeredWith` adds to `responses` and changes nothing else. -/

@[simp] theorem State.answeredWith_clk (v : Word) : (s.answeredWith v).clk = s.clk := rfl
@[simp] theorem State.answeredWith_trig0 (v : Word) : (s.answeredWith v).trig0 = s.trig0 := rfl
@[simp] theorem State.answeredWith_trig1 (v : Word) : (s.answeredWith v).trig1 = s.trig1 := rfl
@[simp] theorem State.answeredWith_pitch (v : Word) : (s.answeredWith v).pitch = s.pitch := rfl
@[simp] theorem State.answeredWith_quant (v : Word) : (s.answeredWith v).quant = s.quant := rfl
@[simp] theorem State.answeredWith_osc (v : Word) : (s.answeredWith v).osc = s.osc := rfl
@[simp] theorem State.answeredWith_filt (v : Word) : (s.answeredWith v).filt = s.filt := rfl
@[simp] theorem State.answeredWith_env0 (v : Word) : (s.answeredWith v).env0 = s.env0 := rfl
@[simp] theorem State.answeredWith_env1 (v : Word) : (s.answeredWith v).env1 = s.env1 := rfl
@[simp] theorem State.answeredWith_eng (v : Word) : (s.answeredWith v).eng = s.eng := rfl
@[simp] theorem State.answeredWith_inputs (v : Word) : (s.answeredWith v).inputs = s.inputs := rfl
@[simp] theorem State.answeredWith_responses (v : Word) : (s.answeredWith v).responses = s.responses ++ [{ status := 0, data := v }] := rfl
@[simp] theorem State.answeredWith_audioOut (v : Word) : (s.answeredWith v).audioOut = s.audioOut := rfl

/-! `State.accept` answers 0 and changes nothing else. -/

@[simp] theorem State.accept_clk : s.accept.clk = s.clk := rfl
@[simp] theorem State.accept_trig0 : s.accept.trig0 = s.trig0 := rfl
@[simp] theorem State.accept_trig1 : s.accept.trig1 = s.trig1 := rfl
@[simp] theorem State.accept_pitch : s.accept.pitch = s.pitch := rfl
@[simp] theorem State.accept_quant : s.accept.quant = s.quant := rfl
@[simp] theorem State.accept_osc : s.accept.osc = s.osc := rfl
@[simp] theorem State.accept_filt : s.accept.filt = s.filt := rfl
@[simp] theorem State.accept_env0 : s.accept.env0 = s.env0 := rfl
@[simp] theorem State.accept_env1 : s.accept.env1 = s.env1 := rfl
@[simp] theorem State.accept_eng : s.accept.eng = s.eng := rfl
@[simp] theorem State.accept_inputs : s.accept.inputs = s.inputs := rfl
@[simp] theorem State.accept_responses : s.accept.responses = s.responses ++ [{ status := 0, data := 0 }] := rfl
@[simp] theorem State.accept_audioOut : s.accept.audioOut = s.audioOut := rfl

/-! `State.reject` and `State.rejectedWith` write the engine's latch and the response. -/

@[simp] theorem State.reject_clk (e : ErrCode) : (s.reject e).clk = s.clk := rfl
@[simp] theorem State.reject_trig0 (e : ErrCode) : (s.reject e).trig0 = s.trig0 := rfl
@[simp] theorem State.reject_trig1 (e : ErrCode) : (s.reject e).trig1 = s.trig1 := rfl
@[simp] theorem State.reject_pitch (e : ErrCode) : (s.reject e).pitch = s.pitch := rfl
@[simp] theorem State.reject_quant (e : ErrCode) : (s.reject e).quant = s.quant := rfl
@[simp] theorem State.reject_osc (e : ErrCode) : (s.reject e).osc = s.osc := rfl
@[simp] theorem State.reject_filt (e : ErrCode) : (s.reject e).filt = s.filt := rfl
@[simp] theorem State.reject_env0 (e : ErrCode) : (s.reject e).env0 = s.env0 := rfl
@[simp] theorem State.reject_env1 (e : ErrCode) : (s.reject e).env1 = s.env1 := rfl
@[simp] theorem State.reject_eng (e : ErrCode) : (s.reject e).eng = latchError (errNumber e) s.eng := rfl
@[simp] theorem State.reject_inputs (e : ErrCode) : (s.reject e).inputs = s.inputs := rfl
@[simp] theorem State.reject_responses (e : ErrCode) : (s.reject e).responses = s.responses ++ [{ status := errNumber e, data := 0 }] := rfl
@[simp] theorem State.reject_audioOut (e : ErrCode) : (s.reject e).audioOut = s.audioOut := rfl

@[simp] theorem State.rejectedWith_clk (code : BitVec 8) : (s.rejectedWith code).clk = s.clk := rfl
@[simp] theorem State.rejectedWith_trig0 (code : BitVec 8) : (s.rejectedWith code).trig0 = s.trig0 := rfl
@[simp] theorem State.rejectedWith_trig1 (code : BitVec 8) : (s.rejectedWith code).trig1 = s.trig1 := rfl
@[simp] theorem State.rejectedWith_pitch (code : BitVec 8) : (s.rejectedWith code).pitch = s.pitch := rfl
@[simp] theorem State.rejectedWith_quant (code : BitVec 8) : (s.rejectedWith code).quant = s.quant := rfl
@[simp] theorem State.rejectedWith_osc (code : BitVec 8) : (s.rejectedWith code).osc = s.osc := rfl
@[simp] theorem State.rejectedWith_filt (code : BitVec 8) : (s.rejectedWith code).filt = s.filt := rfl
@[simp] theorem State.rejectedWith_env0 (code : BitVec 8) : (s.rejectedWith code).env0 = s.env0 := rfl
@[simp] theorem State.rejectedWith_env1 (code : BitVec 8) : (s.rejectedWith code).env1 = s.env1 := rfl
@[simp] theorem State.rejectedWith_eng (code : BitVec 8) : (s.rejectedWith code).eng = latchError (code) s.eng := rfl
@[simp] theorem State.rejectedWith_inputs (code : BitVec 8) : (s.rejectedWith code).inputs = s.inputs := rfl
@[simp] theorem State.rejectedWith_responses (code : BitVec 8) : (s.rejectedWith code).responses = s.responses ++ [{ status := code, data := 0 }] := rfl
@[simp] theorem State.rejectedWith_audioOut (code : BitVec 8) : (s.rejectedWith code).audioOut = s.audioOut := rfl

/-! `State.resetEvent` gives every register its reset value and keeps the channels. -/

@[simp] theorem State.resetEvent_clk : s.resetEvent.clk = (State.resetIn cfg).clk := rfl
@[simp] theorem State.resetEvent_trig0 : s.resetEvent.trig0 = (State.resetIn cfg).trig0 := rfl
@[simp] theorem State.resetEvent_trig1 : s.resetEvent.trig1 = (State.resetIn cfg).trig1 := rfl
@[simp] theorem State.resetEvent_pitch : s.resetEvent.pitch = (State.resetIn cfg).pitch := rfl
@[simp] theorem State.resetEvent_quant : s.resetEvent.quant = (State.resetIn cfg).quant := rfl
@[simp] theorem State.resetEvent_osc : s.resetEvent.osc = (State.resetIn cfg).osc := rfl
@[simp] theorem State.resetEvent_filt : s.resetEvent.filt = (State.resetIn cfg).filt := rfl
@[simp] theorem State.resetEvent_env0 : s.resetEvent.env0 = (State.resetIn cfg).env0 := rfl
@[simp] theorem State.resetEvent_env1 : s.resetEvent.env1 = (State.resetIn cfg).env1 := rfl
@[simp] theorem State.resetEvent_eng : s.resetEvent.eng = (State.resetIn cfg).eng := rfl
@[simp] theorem State.resetEvent_inputs : s.resetEvent.inputs = s.inputs := rfl
@[simp] theorem State.resetEvent_responses : s.resetEvent.responses = s.responses := rfl
@[simp] theorem State.resetEvent_audioOut : s.resetEvent.audioOut = s.audioOut := rfl

/-! The units a selector names. -/

@[simp] theorem State.trig_trig0 : s.trig .trig0 = s.trig0 := rfl
@[simp] theorem State.trig_trig1 : s.trig .trig1 = s.trig1 := rfl
@[simp] theorem State.env_env0 : s.env .env0 = s.env0 := rfl
@[simp] theorem State.env_env1 : s.env .env1 = s.env1 := rfl
@[simp] theorem State.setTrig_trig0_eq (k : TrigTrack cfg) : s.setTrig .trig0 k = s.setTrig0 k := rfl
@[simp] theorem State.setTrig_trig1_eq (k : TrigTrack cfg) : s.setTrig .trig1 k = s.setTrig1 k := rfl
@[simp] theorem State.setEnv_env0_eq (e : Envelope cfg) : s.setEnv .env0 e = s.setEnv0 e := rfl
@[simp] theorem State.setEnv_env1_eq (e : Envelope cfg) : s.setEnv .env1 e = s.setEnv1 e := rfl
@[simp] theorem State.seqLen_trig0 : s.seqLen .trig0 = s.trig0.len := rfl
@[simp] theorem State.seqLen_trig1 : s.seqLen .trig1 = s.trig1.len := rfl
@[simp] theorem State.seqLen_pitch : s.seqLen .pitch = s.pitch.len := rfl
@[simp] theorem State.seqCur_trig0 : s.seqCur .trig0 = s.trig0.cur := rfl
@[simp] theorem State.seqCur_trig1 : s.seqCur .trig1 = s.trig1.cur := rfl
@[simp] theorem State.seqCur_pitch : s.seqCur .pitch = s.pitch.cur := rfl

theorem State.setCur_trig0 (i : Nat) :
    s.setCur .trig0 i = { s with trig0 := { s.trig0 with cur := BitVec.ofNat 16 i } } := rfl
theorem State.setCur_trig1 (i : Nat) :
    s.setCur .trig1 i = { s with trig1 := { s.trig1 with cur := BitVec.ofNat 16 i } } := rfl
theorem State.setCur_pitch (i : Nat) :
    s.setCur .pitch i = { s with pitch := { s.pitch with cur := BitVec.ofNat 16 i } } := rfl

@[simp] theorem State.trig_setTrig_self (u : TrigSel) (k : TrigTrack cfg) : (s.setTrig u k).trig u = k := by
  cases u <;> rfl

@[simp] theorem State.setTrig_setTrig (u : TrigSel) (k l : TrigTrack cfg) :
    (s.setTrig u k).setTrig u l = s.setTrig u l := by
  cases u <;> rfl

@[simp] theorem State.setTrig_trig_self (u : TrigSel) : s.setTrig u (s.trig u) = s := by
  cases u <;> rfl

@[simp] theorem State.env_setEnv_self (u : EnvSel) (e : Envelope cfg) : (s.setEnv u e).env u = e := by
  cases u <;> rfl

/-! What `answer`, `accept` and `reject` do is what the claims call answered and rejected. -/

theorem State.answer_eq_answeredWith (v : Word) : s.answer v = s.answeredWith v := rfl
theorem State.accept_eq_answeredWith : s.accept = s.answeredWith 0 := rfl
theorem State.reject_eq_rejectedWith (e : ErrCode) : s.reject e = s.rejectedWith (errNumber e) := rfl

/-! The latch of R147. -/

theorem latchError_of_set (code : BitVec 8) (g : Engine) (h : g.err = true) : latchError code g = g := by
  simp [latchError, h]

theorem latchError_of_clear (code : BitVec 8) (g : Engine) (h : g.err = false) :
    latchError code g = { g with err := true, errCode := code } := by
  simp [latchError, h]

@[simp] theorem latchError_play (code : BitVec 8) (g : Engine) : (latchError code g).play = g.play := by
  unfold latchError
  split <;> rfl

@[simp] theorem latchError_lastTick (code : BitVec 8) (g : Engine) : (latchError code g).lastTick = g.lastTick := by
  unfold latchError
  split <;> rfl

@[simp] theorem latchError_lastTrig (code : BitVec 8) (g : Engine) : (latchError code g).lastTrig = g.lastTrig := by
  unfold latchError
  split <;> rfl

@[simp] theorem latchError_outL (code : BitVec 8) (g : Engine) : (latchError code g).outL = g.outL := by
  unfold latchError
  split <;> rfl

@[simp] theorem latchError_outR (code : BitVec 8) (g : Engine) : (latchError code g).outR = g.outR := by
  unfold latchError
  split <;> rfl

end Sys2Proof.Machine
end

