-- ==== Sys2Proof/Laws/Sequencer.lean ====
section
/-! SUPPORT. The pattern memories as memories (a read after a write), the playheads, and the checks of the
sequencers' commands. -/

namespace Sys2Proof.Machine

open Sys2Proof

variable {cfg : Config}

theorem badIndex_eq_true_iff (i : Nat) (len : BitVec 17) : badIndex i len = true ↔ len.toNat ≤ i := by
  unfold badIndex
  rw [decide_eq_true_eq]

theorem badIndex_eq_false_iff (i : Nat) (len : BitVec 17) : badIndex i len = false ↔ i < len.toNat := by
  unfold badIndex
  rw [decide_eq_false_iff_not, not_le]

/-- What a write of one step does to every read (R15). -/
theorem TrigTrack.stepActive_setStep (k : TrigTrack cfg) (i j : Nat) (b : Bool) (h : i < cfg.N_MAX) :
    (k.setStep i b).stepActive j = if j = i then b else k.stepActive j := by
  unfold TrigTrack.setStep TrigTrack.stepActive
  dsimp only
  rw [Vector.getElem?_setIfInBounds]
  by_cases hij : i = j
  · subst hij
    simp [h]
  · rw [if_neg hij, if_neg (Ne.symm hij)]

/-- Writing back what a step holds changes nothing. -/
theorem TrigTrack.setStep_stepActive (k : TrigTrack cfg) (i : Nat) : k.setStep i (k.stepActive i) = k := by
  unfold TrigTrack.setStep TrigTrack.stepActive
  have e : k.active.setIfInBounds i ((k.active[i]?).getD false) = k.active := by
    apply Vector.ext
    intro j hj
    rw [Vector.getElem_setIfInBounds]
    split
    · rename_i h
      subst h
      rw [Vector.getElem?_eq_getElem hj, Option.getD_some]
    · rfl
  rw [e]

/-- The later of two writes to one step counts. -/
theorem TrigTrack.setStep_setStep (k : TrigTrack cfg) (i : Nat) (a b : Bool) :
    (k.setStep i a).setStep i b = k.setStep i b := by
  unfold TrigTrack.setStep
  simp

@[simp] theorem TrigTrack.setStep_len (k : TrigTrack cfg) (i : Nat) (b : Bool) : (k.setStep i b).len = k.len := rfl
@[simp] theorem TrigTrack.setStep_cur (k : TrigTrack cfg) (i : Nat) (b : Bool) : (k.setStep i b).cur = k.cur := rfl

/-- What a write of one note does to every read (R15), for a note that fits the element. -/
theorem PitchTrack.noteAt_setNote (k : PitchTrack cfg) (i j : Nat) (n : Int) (h : i < cfg.N_MAX) (h1 : -(2 ^ 15) ≤ n)
    (h2 : n < 2 ^ 15) : (k.setNote i n).noteAt j = if j = i then n else k.noteAt j := by
  unfold PitchTrack.setNote PitchTrack.noteAt
  dsimp only
  rw [Vector.getElem?_setIfInBounds]
  by_cases hij : i = j
  · subst hij
    rw [if_pos rfl, if_pos h, if_pos rfl, Option.getD_some, BitVec.toInt_ofInt]
    simp only [Int.bmod]
    split <;> omega
  · rw [if_neg hij, if_neg (Ne.symm hij)]

@[simp] theorem PitchTrack.setNote_len (k : PitchTrack cfg) (i : Nat) (n : Int) : (k.setNote i n).len = k.len := rfl
@[simp] theorem PitchTrack.setNote_cur (k : PitchTrack cfg) (i : Nat) (n : Int) : (k.setNote i n).cur = k.cur := rfl
@[simp] theorem PitchTrack.setNote_transpose (k : PitchTrack cfg) (i : Nat) (n : Int) :
    (k.setNote i n).transpose = k.transpose := rfl

/-- SEQ_ADVANCE (R66), for a length the machine can have. -/
theorem toNat_nextStep (cur : BitVec 16) (len : BitVec 17) (h1 : 1 ≤ len.toNat) (h2 : len.toNat ≤ 65536) :
    (nextStep cur len).toNat = (cur.toNat + 1) % len.toNat := by
  have := Nat.mod_lt (cur.toNat + 1) (show 0 < len.toNat by omega)
  unfold nextStep
  rw [BitVec.toNat_ofNat]
  omega

@[simp] theorem initTrig_stepActive (n : Nat) (k : TrigTrack cfg) (i : Nat) : (initTrig n k).stepActive i = false := by
  unfold initTrig TrigTrack.stepActive
  dsimp only
  rcases Nat.lt_or_ge i cfg.N_MAX with h | h
  · rw [Vector.getElem?_eq_getElem h, Vector.getElem_replicate, Option.getD_some]
  · rw [Vector.getElem?_eq_none h, Option.getD_none]

end Sys2Proof.Machine
end

