-- ==== Sys2Proof/Laws/Engine.lean ====
section
/-! SUPPORT. SAMPLE_STEP (R136) part by part: what each part does to each field of the state, so that no proof
unfolds the whole step. -/

namespace Sys2Proof.Machine

open Sys2Proof

variable {cfg : Config} (s : State cfg)

/-! The sequencers' advance. -/

@[simp] theorem advanceAll_clk : (advanceAll s).clk = s.clk := rfl
@[simp] theorem advanceAll_trig0 : (advanceAll s).trig0 = advanceTrig s.trig0 := rfl
@[simp] theorem advanceAll_trig1 : (advanceAll s).trig1 = advanceTrig s.trig1 := rfl
@[simp] theorem advanceAll_pitch : (advanceAll s).pitch = advancePitch s.pitch := rfl
@[simp] theorem advanceAll_quant : (advanceAll s).quant = s.quant := rfl
@[simp] theorem advanceAll_osc : (advanceAll s).osc = s.osc := rfl
@[simp] theorem advanceAll_filt : (advanceAll s).filt = s.filt := rfl
@[simp] theorem advanceAll_env0 : (advanceAll s).env0 = s.env0 := rfl
@[simp] theorem advanceAll_env1 : (advanceAll s).env1 = s.env1 := rfl
@[simp] theorem advanceAll_eng : (advanceAll s).eng = s.eng := rfl
@[simp] theorem advanceAll_inputs : (advanceAll s).inputs = s.inputs := rfl
@[simp] theorem advanceAll_responses : (advanceAll s).responses = s.responses := rfl
@[simp] theorem advanceAll_audioOut : (advanceAll s).audioOut = s.audioOut := rfl

@[simp] theorem advanceTrig_len (k : TrigTrack cfg) : (advanceTrig k).len = k.len := rfl
@[simp] theorem advanceTrig_cur (k : TrigTrack cfg) : (advanceTrig k).cur = nextStep k.cur k.len := rfl
@[simp] theorem advanceTrig_active (k : TrigTrack cfg) : (advanceTrig k).active = k.active := rfl
@[simp] theorem advanceTrig_stepActive (k : TrigTrack cfg) (i : Nat) :
    (advanceTrig k).stepActive i = k.stepActive i := rfl
@[simp] theorem advancePitch_len (k : PitchTrack cfg) : (advancePitch k).len = k.len := rfl
@[simp] theorem advancePitch_cur (k : PitchTrack cfg) : (advancePitch k).cur = nextStep k.cur k.len := rfl
@[simp] theorem advancePitch_transpose (k : PitchTrack cfg) : (advancePitch k).transpose = k.transpose := rfl
@[simp] theorem advancePitch_note (k : PitchTrack cfg) : (advancePitch k).note = k.note := rfl
@[simp] theorem advancePitch_noteAt (k : PitchTrack cfg) (i : Nat) : (advancePitch k).noteAt i = k.noteAt i := rfl

/-! The cross-track reset. -/

@[simp] theorem crossReset_clk : (crossReset s).clk = s.clk := by
  unfold crossReset
  split <;> rfl

theorem crossReset_trig0 :
    (crossReset s).trig0 = if s.trig1.currentActive then { s.trig0 with cur := 0 } else s.trig0 := by
  unfold crossReset
  split <;> rfl

@[simp] theorem crossReset_trig1 : (crossReset s).trig1 = s.trig1 := by
  unfold crossReset
  split <;> rfl

theorem crossReset_pitch :
    (crossReset s).pitch = if s.trig1.currentActive then { s.pitch with cur := 0 } else s.pitch := by
  unfold crossReset
  split <;> rfl

@[simp] theorem crossReset_quant : (crossReset s).quant = s.quant := by
  unfold crossReset
  split <;> rfl

@[simp] theorem crossReset_osc : (crossReset s).osc = s.osc := by
  unfold crossReset
  split <;> rfl

@[simp] theorem crossReset_filt : (crossReset s).filt = s.filt := by
  unfold crossReset
  split <;> rfl

@[simp] theorem crossReset_env0 : (crossReset s).env0 = s.env0 := by
  unfold crossReset
  split <;> rfl

@[simp] theorem crossReset_env1 : (crossReset s).env1 = s.env1 := by
  unfold crossReset
  split <;> rfl

@[simp] theorem crossReset_eng : (crossReset s).eng = s.eng := by
  unfold crossReset
  split <;> rfl

@[simp] theorem crossReset_inputs : (crossReset s).inputs = s.inputs := by
  unfold crossReset
  split <;> rfl

@[simp] theorem crossReset_responses : (crossReset s).responses = s.responses := by
  unfold crossReset
  split <;> rfl

@[simp] theorem crossReset_audioOut : (crossReset s).audioOut = s.audioOut := by
  unfold crossReset
  split <;> rfl

/-! A tick's sequencing: advance, then the cross-track reset. -/

@[simp] theorem tickTracks_clk : (tickTracks s).clk = s.clk :=
  crossReset_clk (advanceAll s)

theorem tickTracks_trig0 : (tickTracks s).trig0 =
    if (advanceTrig s.trig1).currentActive then { advanceTrig s.trig0 with cur := 0 } else advanceTrig s.trig0 :=
  crossReset_trig0 (advanceAll s)

@[simp] theorem tickTracks_trig1 : (tickTracks s).trig1 = advanceTrig s.trig1 :=
  crossReset_trig1 (advanceAll s)

theorem tickTracks_pitch : (tickTracks s).pitch =
    if (advanceTrig s.trig1).currentActive then { advancePitch s.pitch with cur := 0 } else advancePitch s.pitch :=
  crossReset_pitch (advanceAll s)

@[simp] theorem tickTracks_quant : (tickTracks s).quant = s.quant :=
  crossReset_quant (advanceAll s)

@[simp] theorem tickTracks_osc : (tickTracks s).osc = s.osc :=
  crossReset_osc (advanceAll s)

@[simp] theorem tickTracks_filt : (tickTracks s).filt = s.filt :=
  crossReset_filt (advanceAll s)

@[simp] theorem tickTracks_env0 : (tickTracks s).env0 = s.env0 :=
  crossReset_env0 (advanceAll s)

@[simp] theorem tickTracks_env1 : (tickTracks s).env1 = s.env1 :=
  crossReset_env1 (advanceAll s)

@[simp] theorem tickTracks_eng : (tickTracks s).eng = s.eng :=
  crossReset_eng (advanceAll s)

@[simp] theorem tickTracks_inputs : (tickTracks s).inputs = s.inputs :=
  crossReset_inputs (advanceAll s)

@[simp] theorem tickTracks_responses : (tickTracks s).responses = s.responses :=
  crossReset_responses (advanceAll s)

@[simp] theorem tickTracks_audioOut : (tickTracks s).audioOut = s.audioOut :=
  crossReset_audioOut (advanceAll s)

/-! The playing of a step. -/

@[simp] theorem triggerVoice_clk : (triggerVoice s).clk = s.clk := by simp [triggerVoice]
@[simp] theorem triggerVoice_trig0 : (triggerVoice s).trig0 = s.trig0 := by simp [triggerVoice]
@[simp] theorem triggerVoice_trig1 : (triggerVoice s).trig1 = s.trig1 := by simp [triggerVoice]
@[simp] theorem triggerVoice_pitch : (triggerVoice s).pitch = s.pitch := by simp [triggerVoice]
@[simp] theorem triggerVoice_quant : (triggerVoice s).quant = s.quant := by simp [triggerVoice]
@[simp] theorem triggerVoice_osc : (triggerVoice s).osc = oscSetFreqInt (pitchFreq s.pitch) s.osc := by simp [triggerVoice]
@[simp] theorem triggerVoice_filt : (triggerVoice s).filt = s.filt := by simp [triggerVoice]
@[simp] theorem triggerVoice_env0 : (triggerVoice s).env0 = envTriggerInt s.env0 := by simp [triggerVoice]
@[simp] theorem triggerVoice_env1 : (triggerVoice s).env1 = envTriggerInt s.env1 := by simp [triggerVoice]
@[simp] theorem triggerVoice_eng : (triggerVoice s).eng = s.eng := by simp [triggerVoice]
@[simp] theorem triggerVoice_inputs : (triggerVoice s).inputs = s.inputs := by simp [triggerVoice]
@[simp] theorem triggerVoice_responses : (triggerVoice s).responses = s.responses := by simp [triggerVoice]
@[simp] theorem triggerVoice_audioOut : (triggerVoice s).audioOut = s.audioOut := by simp [triggerVoice]

/-! The synthesis. -/

@[simp] theorem synthesize_clk (tick trig : Bool) : (synthesize tick trig s).clk = s.clk := rfl
@[simp] theorem synthesize_trig0 (tick trig : Bool) : (synthesize tick trig s).trig0 = s.trig0 := rfl
@[simp] theorem synthesize_trig1 (tick trig : Bool) : (synthesize tick trig s).trig1 = s.trig1 := rfl
@[simp] theorem synthesize_pitch (tick trig : Bool) : (synthesize tick trig s).pitch = s.pitch := rfl
@[simp] theorem synthesize_quant (tick trig : Bool) : (synthesize tick trig s).quant = s.quant := rfl
@[simp] theorem synthesize_osc (tick trig : Bool) : (synthesize tick trig s).osc = oscProcess s.osc := rfl
theorem synthesize_filt (tick trig : Bool) : (synthesize tick trig s).filt =
    filtProcess ((envProcess s.env0).out.mul (oscOut s.osc))
      (filtRecompute { s.filt with mod := (envProcess s.env1).out.mul s.filt.depth }) := rfl
@[simp] theorem synthesize_env0 (tick trig : Bool) : (synthesize tick trig s).env0 = envProcess s.env0 := rfl
@[simp] theorem synthesize_env1 (tick trig : Bool) : (synthesize tick trig s).env1 = envProcess s.env1 := rfl
theorem synthesize_eng (tick trig : Bool) : (synthesize tick trig s).eng =
    { s.eng with
      lastTick := tick
      lastTrig := trig
      outL := (synthesize tick trig s).filt.y1
      outR := (synthesize tick trig s).filt.y1 } := by
  rw [synthesize_filt]
  simp only [synthesize, filtProcess]
@[simp] theorem synthesize_inputs (tick trig : Bool) : (synthesize tick trig s).inputs = s.inputs := rfl
@[simp] theorem synthesize_responses (tick trig : Bool) : (synthesize tick trig s).responses = s.responses := rfl
@[simp] theorem synthesize_audioOut (tick trig : Bool) : (synthesize tick trig s).audioOut = s.audioOut := rfl

/-! The playing sample step, with its three stages named: the state after the clock, after the tracks, after
the trigger. -/

/-- The state of a playing sample step after its clock and its tracks. -/
abbrev trackStage (s : State cfg) : State cfg :=
  if clkTicks s.clk then tickTracks (s.setClk (clkProcess s.clk)) else s.setClk (clkProcess s.clk)

/-- Whether a playing sample step triggers. -/
abbrev sampleTriggers (s : State cfg) : Bool := clkTicks s.clk && (trackStage s).trig0.currentActive

theorem playingSample_eq : playingSample s =
    synthesize (clkTicks s.clk) (sampleTriggers s)
      (if sampleTriggers s then triggerVoice (trackStage s) else trackStage s) := rfl

theorem sampleStep_of_play (h : s.eng.play = true) :
    sampleStep s = (playingSample s).deliver
      { left := (playingSample s).eng.outL, right := (playingSample s).eng.outR } := by
  unfold sampleStep
  rw [h]
  rfl

theorem sampleStep_of_stop (h : s.eng.play = false) :
    sampleStep s = (stoppedSample s).deliver { left := F32.ofInt 0, right := F32.ofInt 0 } := by
  unfold sampleStep
  rw [h]
  rfl

theorem trackStage_clk : (trackStage s).clk = clkProcess s.clk := by
  unfold trackStage
  split <;> simp

theorem trackStage_trig1 :
    (trackStage s).trig1 = if clkTicks s.clk then advanceTrig s.trig1 else s.trig1 := by
  unfold trackStage
  split <;> simp

theorem trackStage_trig0 : (trackStage s).trig0 =
    if clkTicks s.clk then
      (if (advanceTrig s.trig1).currentActive then { advanceTrig s.trig0 with cur := 0 } else advanceTrig s.trig0)
    else s.trig0 := by
  unfold trackStage
  split
  · exact tickTracks_trig0 _
  · rfl

theorem trackStage_pitch : (trackStage s).pitch =
    if clkTicks s.clk then
      (if (advanceTrig s.trig1).currentActive then { advancePitch s.pitch with cur := 0 } else advancePitch s.pitch)
    else s.pitch := by
  unfold trackStage
  split
  · exact tickTracks_pitch _
  · rfl

@[simp] theorem trackStage_quant : (trackStage s).quant = s.quant := by
  unfold trackStage
  split <;> simp

@[simp] theorem trackStage_osc : (trackStage s).osc = s.osc := by
  unfold trackStage
  split <;> simp

@[simp] theorem trackStage_filt : (trackStage s).filt = s.filt := by
  unfold trackStage
  split <;> simp

@[simp] theorem trackStage_env0 : (trackStage s).env0 = s.env0 := by
  unfold trackStage
  split <;> simp

@[simp] theorem trackStage_env1 : (trackStage s).env1 = s.env1 := by
  unfold trackStage
  split <;> simp

@[simp] theorem trackStage_eng : (trackStage s).eng = s.eng := by
  unfold trackStage
  split <;> simp

@[simp] theorem trackStage_inputs : (trackStage s).inputs = s.inputs := by
  unfold trackStage
  split <;> simp

@[simp] theorem trackStage_responses : (trackStage s).responses = s.responses := by
  unfold trackStage
  split <;> simp

@[simp] theorem trackStage_audioOut : (trackStage s).audioOut = s.audioOut := by
  unfold trackStage
  split <;> simp

/-! The playing sample step, field by field. -/

theorem playingSample_clk : (playingSample s).clk = (trackStage s).clk := by
  rw [playingSample_eq, synthesize_clk]
  split <;> rfl

theorem playingSample_trig0 : (playingSample s).trig0 = (trackStage s).trig0 := by
  rw [playingSample_eq, synthesize_trig0]
  split <;> rfl

theorem playingSample_trig1 : (playingSample s).trig1 = (trackStage s).trig1 := by
  rw [playingSample_eq, synthesize_trig1]
  split <;> rfl

theorem playingSample_pitch : (playingSample s).pitch = (trackStage s).pitch := by
  rw [playingSample_eq, synthesize_pitch]
  split <;> rfl

@[simp] theorem playingSample_quant : (playingSample s).quant = s.quant := by
  rw [playingSample_eq, synthesize_quant]
  split <;> simp

@[simp] theorem playingSample_inputs : (playingSample s).inputs = s.inputs := by
  rw [playingSample_eq, synthesize_inputs]
  split <;> simp

@[simp] theorem playingSample_responses : (playingSample s).responses = s.responses := by
  rw [playingSample_eq, synthesize_responses]
  split <;> simp

@[simp] theorem playingSample_audioOut : (playingSample s).audioOut = s.audioOut := by
  rw [playingSample_eq, synthesize_audioOut]
  split <;> simp

theorem playingSample_osc : (playingSample s).osc =
    oscProcess (if sampleTriggers s then oscSetFreqInt (pitchFreq (trackStage s).pitch) s.osc else s.osc) := by
  rw [playingSample_eq, synthesize_osc]
  split <;> simp

theorem playingSample_env0 :
    (playingSample s).env0 = envProcess (if sampleTriggers s then envTriggerInt s.env0 else s.env0) := by
  rw [playingSample_eq, synthesize_env0]
  split <;> simp

theorem playingSample_env1 :
    (playingSample s).env1 = envProcess (if sampleTriggers s then envTriggerInt s.env1 else s.env1) := by
  rw [playingSample_eq, synthesize_env1]
  split <;> simp

theorem playingSample_filt : (playingSample s).filt =
    filtProcess
      ((playingSample s).env0.out.mul
        (oscOut (if sampleTriggers s then oscSetFreqInt (pitchFreq (trackStage s).pitch) s.osc else s.osc)))
      (filtRecompute { s.filt with mod := (playingSample s).env1.out.mul s.filt.depth }) := by
  rw [playingSample_env0, playingSample_env1, playingSample_eq, synthesize_filt]
  split <;> simp

theorem playingSample_eng : (playingSample s).eng =
    { s.eng with
      lastTick := clkTicks s.clk
      lastTrig := sampleTriggers s
      outL := (playingSample s).filt.y1
      outR := (playingSample s).filt.y1 } := by
  rw [playingSample_eq, synthesize_eng]
  split <;> simp

/-! The components a sample step keeps apart. -/

@[simp] theorem clkProcess_freq (c : Clock cfg) : (clkProcess c).freq = c.freq := rfl
@[simp] theorem clkProcess_multIdx (c : Clock cfg) : (clkProcess c).multIdx = c.multIdx := rfl
@[simp] theorem clkProcess_inc (c : Clock cfg) : (clkProcess c).inc = c.inc := rfl

@[simp] theorem oscResync_freq (o : Oscillator cfg) : (oscResync o).freq = o.freq := rfl
@[simp] theorem oscResync_inc (o : Oscillator cfg) : (oscResync o).inc = o.inc := rfl
@[simp] theorem oscResync_amp (o : Oscillator cfg) : (oscResync o).amp = o.amp := rfl
@[simp] theorem oscResync_mode (o : Oscillator cfg) : (oscResync o).mode = o.mode := rfl
@[simp] theorem oscResync_phase (o : Oscillator cfg) : (oscResync o).phase = o.phase := rfl

@[simp] theorem oscSetFreqInt_freq (f : F32) (o : Oscillator cfg) :
    (oscSetFreqInt f o).freq = f.clamp (F32.ofInt 0) (nyqF32 cfg) := rfl
@[simp] theorem oscSetFreqInt_inc (f : F32) (o : Oscillator cfg) :
    (oscSetFreqInt f o).inc = (f.clamp (F32.ofInt 0) (nyqF32 cfg)).div (srF32 cfg) := rfl
@[simp] theorem oscSetFreqInt_amp (f : F32) (o : Oscillator cfg) : (oscSetFreqInt f o).amp = o.amp := rfl
@[simp] theorem oscSetFreqInt_mode (f : F32) (o : Oscillator cfg) : (oscSetFreqInt f o).mode = o.mode := rfl
@[simp] theorem oscSetFreqInt_phase (f : F32) (o : Oscillator cfg) : (oscSetFreqInt f o).phase = o.phase := rfl

@[simp] theorem oscProcess_freq (o : Oscillator cfg) : (oscProcess o).freq = o.freq := by
  unfold oscProcess
  split <;> rfl

@[simp] theorem oscProcess_inc (o : Oscillator cfg) : (oscProcess o).inc = o.inc := by
  unfold oscProcess
  split <;> rfl

@[simp] theorem oscProcess_amp (o : Oscillator cfg) : (oscProcess o).amp = o.amp := by
  unfold oscProcess
  split <;> rfl

@[simp] theorem oscProcess_mode (o : Oscillator cfg) : (oscProcess o).mode = o.mode := by
  unfold oscProcess
  split <;> rfl

@[simp] theorem oscProcess_coeff (o : Oscillator cfg) : (oscProcess o).coeff = o.coeff := by
  unfold oscProcess
  split <;> rfl

@[simp] theorem oscProcess_phase (o : Oscillator cfg) : (oscProcess o).phase = nextPhase o.phase o.inc := by
  unfold oscProcess
  split <;> rfl

@[simp] theorem envTriggerInt_stage (e : Envelope cfg) : (envTriggerInt e).stage = .attack := rfl
@[simp] theorem envTriggerInt_attack (e : Envelope cfg) : (envTriggerInt e).attack = e.attack := rfl
@[simp] theorem envTriggerInt_decay (e : Envelope cfg) : (envTriggerInt e).decay = e.decay := rfl
@[simp] theorem envTriggerInt_out (e : Envelope cfg) : (envTriggerInt e).out = e.out := rfl

@[simp] theorem envProcess_attack (e : Envelope cfg) : (envProcess e).attack = e.attack := by
  unfold envProcess
  split
  · rfl
  · unfold envAttack; dsimp only; split <;> rfl
  · unfold envDecay; dsimp only; split <;> rfl

@[simp] theorem envProcess_decay (e : Envelope cfg) : (envProcess e).decay = e.decay := by
  unfold envProcess
  split
  · rfl
  · unfold envAttack; dsimp only; split <;> rfl
  · unfold envDecay; dsimp only; split <;> rfl

/-- ENV_PROCESS leaves IDLE alone (R126). -/
theorem envProcess_of_idle (e : Envelope cfg) (h : e.stage = .idle) : envProcess e = e := by
  unfold envProcess
  rw [h]

theorem envProcess_of_attack (e : Envelope cfg) (h : e.stage = .attack) : envProcess e = envAttack e := by
  unfold envProcess
  rw [h]

theorem envProcess_of_decay (e : Envelope cfg) (h : e.stage = .decay) : envProcess e = envDecay e := by
  unfold envProcess
  rw [h]

@[simp] theorem filtRecompute_freq (u : FilterUnit cfg) : (filtRecompute u).freq = u.freq := rfl
@[simp] theorem filtRecompute_q (u : FilterUnit cfg) : (filtRecompute u).q = u.q := rfl
@[simp] theorem filtRecompute_mod (u : FilterUnit cfg) : (filtRecompute u).mod = u.mod := rfl
@[simp] theorem filtRecompute_depth (u : FilterUnit cfg) : (filtRecompute u).depth = u.depth := rfl
@[simp] theorem filtRecompute_eff (u : FilterUnit cfg) :
    (filtRecompute u).eff = clampFiltFreq (u.freq.add u.mod) := rfl
@[simp] theorem filtRecompute_coef (u : FilterUnit cfg) :
    (filtRecompute u).coef = coefOf cfg (clampFiltFreq (u.freq.add u.mod)) u.q := rfl
@[simp] theorem filtProcess_freq (x : F32) (u : FilterUnit cfg) : (filtProcess x u).freq = u.freq := rfl
@[simp] theorem filtProcess_q (x : F32) (u : FilterUnit cfg) : (filtProcess x u).q = u.q := rfl
@[simp] theorem filtProcess_mod (x : F32) (u : FilterUnit cfg) : (filtProcess x u).mod = u.mod := rfl
@[simp] theorem filtProcess_depth (x : F32) (u : FilterUnit cfg) : (filtProcess x u).depth = u.depth := rfl
@[simp] theorem filtProcess_eff (x : F32) (u : FilterUnit cfg) : (filtProcess x u).eff = u.eff := rfl
@[simp] theorem filtProcess_coef (x : F32) (u : FilterUnit cfg) : (filtProcess x u).coef = u.coef := rfl

end Sys2Proof.Machine
end

