-- ==== Sys2Proof/Laws/Float.lean ====
section
/-! SUPPORT. Binary32 arithmetic: what `roundNE` and `roundMag` give, as the order of patterns against the
midpoints between neighbouring values; the rest follows from that. -/

namespace Sys2Proof

/-- `j` is at most the rounded quotient exactly when the quotient is beyond the midpoint below `j`, or on it
with `j` even. -/
theorem le_roundNE_iff (n d j : Nat) (hd : 0 < d) (hj : 1 ≤ j) :
    j ≤ roundNE n d ↔ (2 * j - 1) * d < 2 * n ∨ ((2 * j - 1) * d = 2 * n ∧ j % 2 = 0) := by
  have hn : d * (n / d) + n % d = n := Nat.div_add_mod n d
  have hr : n % d < d := Nat.mod_lt _ hd
  obtain ⟨i, rfl⟩ : ∃ i, j = i + 1 := ⟨j - 1, by omega⟩
  have e1 : 2 * (i + 1) - 1 = 2 * i + 1 := by omega
  rw [e1]
  unfold roundNE
  dsimp only
  generalize n / d = q at *
  generalize n % d = r at *
  subst hn
  rcases Nat.lt_trichotomy i q with h | h | h
  · have : (2 * i + 1) * d < 2 * (d * q + r) := by nlinarith
    constructor
    · intro _; exact .inl this
    · intro _; split
      · omega
      · split <;> [omega; (split <;> omega)]
  · subst h
    have e2 : (2 * i + 1) * d = 2 * (d * i) + d := by ring
    rw [e2]
    split
    · constructor
      · omega
      · omega
    · split
      · constructor <;> omega
      · split <;> constructor <;> omega
  · have : 2 * (d * q + r) < (2 * i + 1) * d := by nlinarith
    constructor
    · intro hle
      split at hle
      · omega
      · split at hle
        · obtain rfl : i = q := by omega
          omega
        · split at hle <;> omega
    · intro hle; omega

/-- A magnitude pattern of the binade of unit `2^k`. -/
theorem F32.unitsOf_binade (k j : Nat) (h1 : 2 ^ 23 ≤ j) (h2 : j ≤ 2 ^ 24) :
    F32.unitsOf (k * 2 ^ 23 + j) = j * 2 ^ k := by
  unfold F32.unitsOf
  rcases Nat.lt_or_ge j (2 ^ 24) with h | h
  · have e1 : (k * 2 ^ 23 + j) / 2 ^ 23 = k + 1 := by omega
    have e2 : (k * 2 ^ 23 + j) % 2 ^ 23 = j - 2 ^ 23 := by omega
    rw [e1, e2, if_neg (by omega), Nat.add_sub_cancel' h1, Nat.add_sub_cancel]
  · obtain rfl : j = 2 ^ 24 := by omega
    have e1 : (k * 2 ^ 23 + 2 ^ 24) / 2 ^ 23 = k + 2 := by omega
    have e2 : (k * 2 ^ 23 + 2 ^ 24) % 2 ^ 23 = 0 := by omega
    rw [e1, e2, if_neg (by omega)]
    rw [show k + 2 - 1 = k + 1 from rfl, Nat.pow_succ]; omega

/-- A subnormal pattern, or one of the first binade, is its own number of units. -/
theorem F32.unitsOf_small (j : Nat) (h : j ≤ 2 ^ 24) : F32.unitsOf j = j := by
  rcases Nat.lt_or_ge j (2 ^ 23) with h1 | h1
  · unfold F32.unitsOf
    rw [if_pos (by omega)]
  · simpa using F32.unitsOf_binade 0 j h1 h

theorem F32.unitsOf_lt_succ (m : Nat) : F32.unitsOf m < F32.unitsOf (m + 1) := by
  rcases Nat.lt_or_ge m (2 ^ 23) with h | h
  · rw [F32.unitsOf_small m (by omega), F32.unitsOf_small (m + 1) (by omega)]; omega
  · have hk : ∃ k j, m = k * 2 ^ 23 + j ∧ 2 ^ 23 ≤ j ∧ j < 2 ^ 24 :=
      ⟨m / 2 ^ 23 - 1, m % 2 ^ 23 + 2 ^ 23, by omega, by omega, by omega⟩
    obtain ⟨k, j, rfl, h1, h2⟩ := hk
    rw [F32.unitsOf_binade k j h1 h2.le, Nat.add_assoc, F32.unitsOf_binade k (j + 1) (by omega) (by omega)]
    exact Nat.mul_lt_mul_of_pos_right (by omega) (by positivity)

/-- Patterns are ordered like the values they stand for. -/
theorem F32.unitsOf_strictMono : StrictMono F32.unitsOf := strictMono_nat_of_lt_succ F32.unitsOf_lt_succ

@[simp] theorem F32.unitsOf_zero : F32.unitsOf 0 = 0 := F32.unitsOf_small 0 (by omega)

theorem F32.unitsOf_infMag : F32.unitsOf F32.infMag = 2 ^ 277 := by decide +kernel

/-- WHAT ROUNDING GIVES: `m` is at most the rounded pattern exactly when the exact magnitude is beyond the
midpoint below `m`, or on it with `m` even. -/
theorem F32.le_roundMag_iff (n d m : Nat) (hd : 0 < d) (h1 : 1 ≤ m) (h2 : m ≤ F32.infMag) :
    m ≤ F32.roundMag n d ↔
      (F32.unitsOf (m - 1) + F32.unitsOf m) * d < 2 * n ∨
        ((F32.unitsOf (m - 1) + F32.unitsOf m) * d = 2 * n ∧ m % 2 = 0) := by
  unfold F32.roundMag
  dsimp only
  rw [le_min_iff]
  simp only [h2, and_true]
  generalize hk : Nat.log2 (n / d) - 23 = k
  have hdk : 0 < d * 2 ^ k := by positivity
  have hup : n < 2 ^ 24 * (d * 2 ^ k) := by
    have h := @Nat.lt_log2_self (n / d)
    have h3 : n / d < 2 ^ (24 + k) := lt_of_lt_of_le h (Nat.pow_le_pow_right (by omega) (by omega))
    rw [Nat.div_lt_iff_lt_mul hd] at h3
    rw [Nat.pow_add] at h3
    nlinarith
  have hlo : k = 0 ∨ 2 ^ 23 * (d * 2 ^ k) ≤ n := by
    rcases Nat.eq_zero_or_pos k with h | h
    · exact .inl h
    · refine .inr ?_
      have hne : n / d ≠ 0 := by
        intro h0
        rw [h0] at hk
        simp at hk
        omega
      have h3 : 2 ^ (23 + k) ≤ n / d := (Nat.le_log2 hne).1 (by omega)
      rw [Nat.le_div_iff_mul_le hd, Nat.pow_add] at h3
      nlinarith
  have hq24 : roundNE n (d * 2 ^ k) ≤ 2 ^ 24 := by
    by_contra hc
    have h3 := (le_roundNE_iff n (d * 2 ^ k) (2 ^ 24 + 1) hdk (by omega)).1 (by omega)
    rw [show 2 * (2 ^ 24 + 1) - 1 = 33554433 by norm_num] at h3
    rcases h3 with h3 | ⟨h3, -⟩ <;> linarith
  have mid : ∀ j, 1 ≤ j → F32.unitsOf (k * 2 ^ 23 + j - 1) + F32.unitsOf (k * 2 ^ 23 + j) = (2 * j - 1) * 2 ^ k →
      (k * 2 ^ 23 + j ≤ k * 2 ^ 23 + roundNE n (d * 2 ^ k) ↔
      (F32.unitsOf (k * 2 ^ 23 + j - 1) + F32.unitsOf (k * 2 ^ 23 + j)) * d < 2 * n ∨
        ((F32.unitsOf (k * 2 ^ 23 + j - 1) + F32.unitsOf (k * 2 ^ 23 + j)) * d = 2 * n ∧
          (k * 2 ^ 23 + j) % 2 = 0)) := by
    intro j hj he
    rw [he, Nat.mul_assoc, Nat.mul_comm (2 ^ k) d]
    have h4 := le_roundNE_iff n (d * 2 ^ k) j hdk hj
    have h5 : (k * 2 ^ 23 + j) % 2 = j % 2 := by omega
    rw [h5, ← h4]
    omega
  rcases Nat.lt_or_ge (k * 2 ^ 23 + 2 ^ 24) m with hm | hm
  · -- above the binade
    have hu : 2 ^ 24 * 2 ^ k ≤ F32.unitsOf (m - 1) := by
      rw [← F32.unitsOf_binade k (2 ^ 24) (by omega) le_rfl]
      exact F32.unitsOf_strictMono.monotone (by omega)
    have hu2 := F32.unitsOf_strictMono.monotone (show m - 1 ≤ m by omega)
    have h6 : 2 * n < (F32.unitsOf (m - 1) + F32.unitsOf m) * d := by nlinarith
    constructor
    · intro h; omega
    · intro h; omega
  · rcases Nat.eq_zero_or_pos k with hk0 | hk0
    · have h7 := mid m h1
      subst hk0
      simp only [Nat.zero_mul, Nat.zero_add] at h7 hm ⊢
      apply h7
      rw [F32.unitsOf_small _ (by omega), F32.unitsOf_small _ hm]
      omega
    · have hlo' := hlo.resolve_left (by omega)
      have hq23 : 2 ^ 23 ≤ roundNE n (d * 2 ^ k) := by
        rw [le_roundNE_iff _ _ _ hdk (by omega)]
        refine .inl ?_
        have : (2 * 2 ^ 23 - 1) * (d * 2 ^ k) + d * 2 ^ k = 2 * (2 ^ 23 * (d * 2 ^ k)) := by ring
        omega
      rcases Nat.lt_or_ge (k * 2 ^ 23 + 2 ^ 23) m with hm2 | hm2
      · obtain ⟨j, rfl⟩ : ∃ j, m = k * 2 ^ 23 + j := ⟨m - k * 2 ^ 23, by omega⟩
        apply mid j (by omega)
        rw [Nat.add_sub_assoc (by omega), F32.unitsOf_binade k (j - 1) (by omega) (by omega),
          F32.unitsOf_binade k j (by omega) (by omega), ← Nat.add_mul]
        congr 1; omega
      · have hu : F32.unitsOf m ≤ 2 ^ 23 * 2 ^ k := by
          rw [← F32.unitsOf_binade k (2 ^ 23) le_rfl (by omega)]
          exact F32.unitsOf_strictMono.monotone hm2
        have hu2 := F32.unitsOf_strictMono (show m - 1 < m by omega)
        have h6 : (F32.unitsOf (m - 1) + F32.unitsOf m) * d < 2 * n := by nlinarith
        constructor
        · intro _; exact .inl h6
        · intro _; omega

theorem F32.roundMag_le (n d : Nat) : F32.roundMag n d ≤ F32.infMag := min_le_right _ _

/-- Rounding is monotone in the exact magnitude. -/
theorem F32.roundMag_mono (n d n' d' : Nat) (hd : 0 < d) (hd' : 0 < d') (h : n * d' ≤ n' * d) :
    F32.roundMag n d ≤ F32.roundMag n' d' := by
  rcases Nat.eq_zero_or_pos (F32.roundMag n d) with h0 | h0
  · omega
  · rw [F32.le_roundMag_iff n' d' _ hd' h0 (F32.roundMag_le _ _)]
    have h1 := (F32.le_roundMag_iff n d _ hd h0 (F32.roundMag_le _ _)).1 le_rfl
    generalize F32.unitsOf (F32.roundMag n d - 1) + F32.unitsOf (F32.roundMag n d) = u at *
    rcases h1 with h1 | ⟨h1, h2⟩
    · refine .inl (Nat.lt_of_mul_lt_mul_right (a := d) ?_)
      nlinarith
    · have h3 : u * d' ≤ 2 * n' := by
        refine Nat.le_of_mul_le_mul_right (c := d) ?_ hd
        nlinarith
      omega

/-- A representable magnitude rounds to itself. -/
theorem F32.roundMag_exact (m d : Nat) (hd : 0 < d) (hm : m ≤ F32.infMag) :
    F32.roundMag (F32.unitsOf m * d) d = m := by
  have up : ∀ j, 1 ≤ j → j ≤ F32.infMag → (j ≤ F32.roundMag (F32.unitsOf m * d) d ↔ j ≤ m) := by
    intro j h1 h2
    rw [F32.le_roundMag_iff _ _ _ hd h1 h2]
    have hs := F32.unitsOf_strictMono (show j - 1 < j by omega)
    constructor
    · intro h
      by_contra hc
      have : F32.unitsOf m ≤ F32.unitsOf (j - 1) := F32.unitsOf_strictMono.monotone (by omega)
      rcases h with h | ⟨h, -⟩ <;> nlinarith
    · intro h
      have : F32.unitsOf j ≤ F32.unitsOf m := F32.unitsOf_strictMono.monotone h
      left
      nlinarith
  have hle := F32.roundMag_le (F32.unitsOf m * d) d
  apply le_antisymm
  · by_contra hc
    have := (up _ (by omega) hle).1 le_rfl
    omega
  · rcases Nat.eq_zero_or_pos m with h | h
    · omega
    · exact (up m h hm).2 le_rfl

/-! ### Fields of a value -/

theorem F32.low_lt (a : F32) : a.low < 2 ^ 31 := Nat.mod_lt _ (by positivity)

theorem F32.toNat_pack (b : Bool) (m : Nat) (h : m < 2 ^ 31) :
    (F32.pack b m).bits.toNat = if b then 2 ^ 31 + m else m := by
  unfold F32.pack
  cases b <;> simp only [BitVec.toNat_ofNat, if_true, if_false, Bool.false_eq_true] <;> omega

@[simp] theorem F32.low_pack (b : Bool) (m : Nat) (h : m < 2 ^ 31) : (F32.pack b m).low = m := by
  unfold F32.low
  rw [F32.toNat_pack b m h]
  cases b
  · simp only [if_false, Bool.false_eq_true]; omega
  · simp only [if_true]; omega

theorem F32.sign_eq (a : F32) : a.sign = decide (2 ^ 31 ≤ a.bits.toNat) := by
  unfold F32.sign
  rw [BitVec.msb_eq_decide]

@[simp] theorem F32.sign_pack (b : Bool) (m : Nat) (h : m < 2 ^ 31) : (F32.pack b m).sign = b := by
  rw [F32.sign_eq, F32.toNat_pack b m h]
  cases b
  · simp; omega
  · simp

/-- A value is its sign and its magnitude pattern. -/
theorem F32.pack_sign_low (a : F32) : F32.pack a.sign a.low = a := by
  have h := a.bits.isLt
  have hl := a.low_lt
  cases a with
  | mk v =>
    have e : (F32.pack (F32.sign ⟨v⟩) (F32.low ⟨v⟩)).bits = v := by
      apply BitVec.eq_of_toNat_eq
      rw [F32.toNat_pack _ _ hl, F32.sign_eq]
      simp only [F32.low] at *
      by_cases hc : 2 ^ 31 ≤ v.toNat
      · simp only [hc, decide_true, if_true]; omega
      · simp only [hc, decide_false, Bool.false_eq_true, if_false]; omega
    exact congrArg F32.mk e

theorem F32.ext_sign_low (a b : F32) (hs : a.sign = b.sign) (hl : a.low = b.low) : a = b := by
  rw [← a.pack_sign_low, ← b.pack_sign_low, hs, hl]

theorem F32.infMag_lt : F32.infMag < 2 ^ 31 := by norm_num

theorem F32.isFinite_iff (a : F32) : a.isFinite = true ↔ a.low < F32.infMag := by simp [F32.isFinite]
theorem F32.isInf_iff (a : F32) : a.isInf = true ↔ a.low = F32.infMag := by simp [F32.isInf]
theorem F32.isNaN_iff (a : F32) : a.isNaN = true ↔ F32.infMag < a.low := by simp [F32.isNaN]
theorem F32.isNaN_eq_false_iff (a : F32) : a.isNaN = false ↔ a.low ≤ F32.infMag := by simp [F32.isNaN]
theorem F32.isInf_eq_false_iff (a : F32) : a.isInf = false ↔ a.low ≠ F32.infMag := by simp [F32.isInf]

theorem F32.isNaN_of_finite (a : F32) (h : a.isFinite = true) : a.isNaN = false := by
  rw [F32.isNaN_eq_false_iff]
  exact ((F32.isFinite_iff a).1 h).le

theorem F32.isInf_of_finite (a : F32) (h : a.isFinite = true) : a.isInf = false := by
  rw [F32.isInf_eq_false_iff]
  exact ((F32.isFinite_iff a).1 h).ne

theorem F32.mag_eq_zero_iff (a : F32) : a.mag = 0 ↔ a.low = 0 := by
  unfold F32.mag
  rw [← F32.unitsOf_zero, F32.unitsOf_strictMono.injective.eq_iff, F32.unitsOf_zero]

/-- The rounded quotient of one nonzero magnitude pattern is a pattern of no NaN. -/
theorem F32.isNaN_pack (b : Bool) (m : Nat) (h : m ≤ F32.infMag) : (F32.pack b m).isNaN = false := by
  have := F32.infMag_lt
  rw [F32.isNaN_eq_false_iff, F32.low_pack b m (by omega)]
  exact h

theorem F32.isNaN_pack_roundMag (b : Bool) (n d : Nat) : (F32.pack b (F32.roundMag n d)).isNaN = false :=
  F32.isNaN_pack b _ (F32.roundMag_le n d)

/-- Every NaN an operation yields is a NaN, whatever its free bits. -/
theorem F32.isNaN_nan (op : FloatOp) (a b : F32) : (F32.nan op a b).isNaN = true := by
  unfold F32.nan
  dsimp only
  generalize Config.nanBits op a b = v
  rw [F32.isNaN_iff]
  unfold F32.low
  dsimp only
  rw [BitVec.toNat_append, BitVec.toNat_append]
  generalize (v.extractLsb' 22 1) = x
  have hy := (v.extractLsb' 0 22).isLt
  generalize (v.extractLsb' 0 22).toNat = y at *
  have hx := x.isLt
  generalize x.toNat = z at *
  have e1 : (511#9).toNat = 511 := rfl
  rw [e1]
  have e2 : (z <<< 9 ||| 511) = z * 512 + 511 := by
    rw [← Nat.shiftLeft_add_eq_or_of_lt (by omega), Nat.shiftLeft_eq]
  rw [e2, ← Nat.shiftLeft_add_eq_or_of_lt hy, Nat.shiftLeft_eq]
  unfold F32.infMag
  omega

/-! ### The operators on finite operands -/

theorem F32.units_neg (a : F32) : a.neg.units = -a.units ∧ a.neg.low = a.low ∧ a.neg.sign = !a.sign := by
  have hl : a.neg.low = a.low := by
    have h : ∀ v : BitVec 32, (v ^^^ 0x80000000#32).toNat % 2 ^ 31 = v.toNat % 2 ^ 31 := by
      intro v
      rw [BitVec.toNat_xor]
      apply Nat.eq_of_testBit_eq
      intro i
      rw [Nat.testBit_mod_two_pow, Nat.testBit_mod_two_pow, Nat.testBit_xor]
      by_cases hi : i < 31
      · have : (0x80000000#32).toNat.testBit i = false := by
          rw [show (0x80000000#32).toNat = 2 ^ 31 from rfl, Nat.testBit_two_pow]
          simp; omega
        rw [this]; simp
      · simp [hi]
    exact h a.bits
  have hs : a.neg.sign = !a.sign := by
    unfold F32.neg F32.sign
    rw [BitVec.msb_xor, show (0x80000000 : Word).msb = true by decide, Bool.xor_true]
  refine ⟨?_, hl, hs⟩
  unfold F32.units F32.mag
  rw [hl, hs]
  cases a.sign <;> simp

theorem F32.add_finite (a b : F32) (ha : a.isFinite = true) (hb : b.isFinite = true) :
    a.add b = if a.units + b.units = 0 then F32.pack (a.sign && b.sign) 0
      else F32.pack (decide (a.units + b.units < 0)) (F32.roundMag (a.units + b.units).natAbs 1) := by
  simp [F32.add, F32.addNonNaN, F32.isNaN_of_finite, F32.isInf_of_finite, ha, hb]

theorem F32.sub_finite (a b : F32) (ha : a.isFinite = true) (hb : b.isFinite = true) :
    a.sub b = if a.units - b.units = 0 then F32.pack (a.sign && !b.sign) 0
      else F32.pack (decide (a.units - b.units < 0)) (F32.roundMag (a.units - b.units).natAbs 1) := by
  have h := b.units_neg
  have h3 : b.neg.isInf = false := by
    rw [F32.isInf_eq_false_iff, h.2.1, ← F32.isInf_eq_false_iff]
    exact F32.isInf_of_finite b hb
  simp [F32.sub, F32.addNonNaN, F32.isNaN_of_finite, F32.isInf_of_finite, ha, hb, h3, h.1, h.2.2, sub_eq_add_neg]

theorem F32.mul_finite (a b : F32) (ha : a.isFinite = true) (hb : b.isFinite = true) :
    a.mul b = F32.pack (a.sign != b.sign) (F32.roundMag (a.mag * b.mag) (2 ^ 149)) := by
  simp [F32.mul, F32.isNaN_of_finite, F32.isInf_of_finite, ha, hb]

theorem F32.div_finite (a b : F32) (ha : a.isFinite = true) (hb : b.isFinite = true) (hb0 : b.low ≠ 0) :
    a.div b = F32.pack (a.sign != b.sign) (F32.roundMag (a.mag * 2 ^ 149) b.mag) := by
  simp [F32.div, F32.isNaN_of_finite, F32.isInf_of_finite, ha, hb, hb0]

theorem F32.add_nan (a b : F32) (h : a.isNaN = true ∨ b.isNaN = true) : (a.add b).isNaN = true := by
  have : (a.isNaN || b.isNaN) = true := by simpa using h
  simp [F32.add, this, F32.isNaN_nan]

theorem F32.sub_nan (a b : F32) (h : a.isNaN = true ∨ b.isNaN = true) : (a.sub b).isNaN = true := by
  have : (a.isNaN || b.isNaN) = true := by simpa using h
  simp [F32.sub, this, F32.isNaN_nan]

theorem F32.mul_nan (a b : F32) (h : a.isNaN = true ∨ b.isNaN = true) : (a.mul b).isNaN = true := by
  have : (a.isNaN || b.isNaN) = true := by simpa using h
  simp [F32.mul, this, F32.isNaN_nan]

theorem F32.div_nan (a b : F32) (h : a.isNaN = true ∨ b.isNaN = true) : (a.div b).isNaN = true := by
  have : (a.isNaN || b.isNaN) = true := by simpa using h
  simp [F32.div, this, F32.isNaN_nan]

/-! ### The order -/

theorem F32.lt_iff (a b : F32) : a.lt b = true ↔ a.isNaN = false ∧ b.isNaN = false ∧ a.key < b.key := by
  simp [F32.lt, and_assoc]

theorem F32.le_iff (a b : F32) : a.le b = true ↔ a.isNaN = false ∧ b.isNaN = false ∧ a.key ≤ b.key := by
  simp [F32.le, and_assoc]

theorem F32.eqv_iff (a b : F32) : a.eqv b = true ↔ a.isNaN = false ∧ b.isNaN = false ∧ a.key = b.key := by
  simp [F32.eqv, and_assoc]

@[simp] theorem F32.key_pack (b : Bool) (m : Nat) (h : m < 2 ^ 31) :
    (F32.pack b m).key = if b then -(m : Int) else m := by
  unfold F32.key
  rw [F32.sign_pack b m h, F32.low_pack b m h]

/-- The order of keys is the order of the values. -/
theorem F32.units_lt_units_iff (a b : F32) : a.units < b.units ↔ a.key < b.key := by
  have hm := F32.unitsOf_strictMono
  have h1 := hm.lt_iff_lt (a := a.low) (b := b.low)
  have h2 := hm.lt_iff_lt (a := b.low) (b := a.low)
  have h3 := hm.lt_iff_lt (a := 0) (b := a.low)
  have h4 := hm.lt_iff_lt (a := 0) (b := b.low)
  rw [F32.unitsOf_zero] at h3 h4
  unfold F32.units F32.key F32.mag
  generalize F32.unitsOf a.low = x at *
  generalize F32.unitsOf b.low = y at *
  cases a.sign <;> cases b.sign <;> simp only [Bool.false_eq_true, if_true, if_false] <;> omega

theorem F32.units_le_units_iff (a b : F32) : a.units ≤ b.units ↔ a.key ≤ b.key := by
  rw [← not_lt, ← not_lt, F32.units_lt_units_iff]

/-- CLAMP (R6): a value that is no NaN ends between bounds that are none, and one between them stays. -/
theorem F32.clamp_within (v lo hi : F32) (hv : v.isNaN = false) (hl : lo.isNaN = false) (hh : hi.isNaN = false)
    (h : lo.key ≤ hi.key) : lo.le (v.clamp lo hi) = true ∧ (v.clamp lo hi).le hi = true := by
  unfold F32.clamp
  split
  · simp [F32.le_iff, *]
  · rename_i h1
    split
    · simp [F32.le_iff, *]
    · rename_i h2
      simp only [F32.lt_iff, hv, hl, hh, true_and, not_lt] at h1 h2
      simp [F32.le_iff, *]

theorem F32.clamp_eq_self (v lo hi : F32) (h1 : lo.le v = true) (h2 : v.le hi = true) : v.clamp lo hi = v := by
  rw [F32.le_iff] at h1 h2
  unfold F32.clamp
  rw [if_neg, if_neg] <;> simp [F32.lt_iff] <;> omega

end Sys2Proof
end

