-- ==== Sys2Proof/Laws/FloatValue.lean ====
section
/-! SUPPORT. The exact value of a finite binary32 pattern as a whole number of units of 2^-149. -/

namespace Sys2Proof

/-- The sign bit and the magnitude pattern from the fields that `F32.value` reads. -/
theorem F32.fields (a : F32) :
    (a.bits.extractLsb' 23 8).toNat = a.low / 2 ^ 23 ∧ (a.bits.extractLsb' 0 23).toNat = a.low % 2 ^ 23 ∧
      a.bits.getLsbD 31 = a.sign := by
  refine ⟨?_, ?_, ?_⟩
  · rw [BitVec.extractLsb'_toNat, Nat.shiftRight_eq_div_pow]
    unfold F32.low
    omega
  · rw [BitVec.extractLsb'_toNat, Nat.shiftRight_zero]
    unfold F32.low
    omega
  · unfold F32.sign
    rw [BitVec.msb_eq_getLsbD_last]

/-- The exact value is the number of units times 2^-149, whatever the pattern. -/
theorem F32.value_eq (a : F32) : a.value = (a.units : ℚ) * 2 ^ (-149 : ℤ) := by
  obtain ⟨h1, h2, h3⟩ := a.fields
  unfold F32.value
  rw [h1, h2, h3]
  have hm : (if a.low / 2 ^ 23 = 0 then ((a.low % 2 ^ 23 : ℕ) : ℚ) * 2 ^ (-149 : ℤ)
      else ((2 ^ 23 + a.low % 2 ^ 23 : ℕ) : ℚ) * 2 ^ (((a.low / 2 ^ 23 : ℕ) : ℤ) - 150)) =
      (a.mag : ℚ) * 2 ^ (-149 : ℤ) := by
    unfold F32.mag F32.unitsOf
    generalize he : a.low / 2 ^ 23 = e
    generalize hf : a.low % 2 ^ 23 = f
    by_cases h0 : e = 0
    · have : a.low = f := by omega
      rw [if_pos h0, if_pos h0, this]
    · obtain ⟨k, rfl⟩ : ∃ k, e = k + 1 := ⟨e - 1, by omega⟩
      rw [if_neg h0, if_neg h0, Nat.add_sub_cancel, Nat.cast_mul, Nat.cast_pow, mul_assoc]
      congr 1
      rw [Nat.cast_ofNat, ← zpow_natCast, ← zpow_add₀ (by norm_num : (2 : ℚ) ≠ 0)]
      congr 1
      push_cast
      ring
  dsimp only
  rw [hm]
  unfold F32.units
  cases a.sign <;> simp

theorem F32.value_lt_iff (a b : F32) : a.value < b.value ↔ a.key < b.key := by
  rw [F32.value_eq, F32.value_eq, mul_lt_mul_iff_left₀ (by positivity), ← F32.units_lt_units_iff, Int.cast_lt]

theorem F32.value_le_iff (a b : F32) : a.value ≤ b.value ↔ a.key ≤ b.key := by
  rw [← not_lt, ← not_lt, F32.value_lt_iff]

end Sys2Proof
end

