-- ==== Sys2Proof/Laws/Clock.lean ====
section
/-! SUPPORT. The clock: what its increment, its phase and its tick are as numbers, and the clock seen through a
whole sample step. -/

namespace Sys2Proof.Machine

open Sys2Proof

/-- R55: a tick is the sum reaching `PERIOD`. -/
theorem clkTicks_iff (c : Clock) : clkTicks c = true ↔ 2 ^ 48 ≤ c.phase.toNat + c.inc.toNat := by
  unfold clkTicks clkSum
  rw [decide_eq_true_iff]

/-- R55: the phase after CLK_PROCESS. -/
theorem toNat_phase_clkProcess (c : Clock) :
    (clkProcess c).phase.toNat = (c.phase.toNat + c.inc.toNat) % 2 ^ 48 := by
  have hp := c.phase.isLt
  unfold clkProcess
  dsimp only
  cases ht : clkTicks c
  · simp only [Bool.false_eq_true, if_false]
    rw [BitVec.toNat_ofNat]
    rfl
  · have := (clkTicks_iff c).1 ht
    simp only [if_true]
    rw [BitVec.toNat_ofNat]
    simp only [clkSum, Config.PERIOD, reference_PHASE_BITS] at *
    omega

/-- R60: the phase one increment before the end; 0 where the increment is a whole turn. -/
theorem toNat_phase_clkPhaseToEnd (c : Clock) (h1 : 1 ≤ c.inc.toNat) (h2 : c.inc.toNat ≤ 2 ^ 48) :
    (clkPhaseToEnd c).phase.toNat = 2 ^ 48 - c.inc.toNat := by
  unfold clkPhaseToEnd
  dsimp only
  rw [BitVec.toNat_ofNat]
  simp only [Config.PERIOD, reference_PHASE_BITS] at *
  omega

@[simp] theorem clkPhaseToEnd_inc (c : Clock) : (clkPhaseToEnd c).inc = c.inc := rfl

/-- R54: the clamp of the increment, whatever the frequency. -/
theorem clkIncOf_range (cfg : Config) (f : F32) (idx : BitVec 8) :
    1 ≤ (clkIncOf cfg f idx).toNat ∧ (clkIncOf cfg f idx).toNat ≤ cfg.PERIOD := by
  unfold clkIncOf
  dsimp only
  generalize (if f.isFinite = true then clkIncExact cfg f idx else cfg.PERIOD) = x
  have hp : 1 ≤ cfg.PERIOD := Nat.one_le_two_pow
  have h2 : 2 ^ (cfg.PHASE_BITS + 1) = 2 * cfg.PERIOD := by rw [Config.PERIOD, Nat.pow_succ, Nat.mul_comm]
  rw [BitVec.toNat_ofNat, Nat.mod_eq_of_lt (by omega)]
  omega

/-- The clock's frequency test as an order on keys (R56). -/
theorem badClockFreq_eq_false_iff (f : F32) : badClockFreq f = false ↔ f.isNaN = false ∧ 0 < f.key := by
  have hz : (F32.ofInt 0).isNaN = false ∧ (F32.ofInt 0).key = 0 := by decide +kernel
  unfold badClockFreq
  rw [Bool.or_eq_false_iff, ← Bool.not_eq_true (f.le _), F32.le_iff, hz.1, hz.2]
  constructor
  · rintro ⟨h1, h2⟩
    exact ⟨h1, by by_contra hc; exact h2 ⟨h1, rfl, by omega⟩⟩
  · rintro ⟨h1, h2⟩
    exact ⟨h1, fun h => by omega⟩

variable {cfg : Config} (s : State cfg)

@[simp] theorem sampleStep_play : (sampleStep s).eng.play = s.eng.play := by
  cases h : s.eng.play
  · rw [sampleStep_of_stop s h]
    simp [stoppedSample, h]
  · rw [sampleStep_of_play s h]
    simp [playingSample_eng, h]

theorem sampleStep_clk (h : s.eng.play = true) : (sampleStep s).clk = clkProcess s.clk := by
  rw [sampleStep_of_play s h]
  simp [playingSample_clk, trackStage_clk]

theorem sampleStep_lastTick (h : s.eng.play = true) : (sampleStep s).eng.lastTick = clkTicks s.clk := by
  rw [sampleStep_of_play s h]
  simp [playingSample_eng]

theorem sampleStep_lastTrig (h : s.eng.play = true) : (sampleStep s).eng.lastTrig = sampleTriggers s := by
  rw [sampleStep_of_play s h]
  simp [playingSample_eng]

theorem sampleStep_trig1 (h : s.eng.play = true) :
    (sampleStep s).trig1 = if clkTicks s.clk then advanceTrig s.trig1 else s.trig1 := by
  rw [sampleStep_of_play s h]
  simp [playingSample_trig1, trackStage_trig1]

theorem sampleStep_trig0 (h : s.eng.play = true) : (sampleStep s).trig0 =
    if clkTicks s.clk then
      (if (advanceTrig s.trig1).currentActive then { advanceTrig s.trig0 with cur := 0 } else advanceTrig s.trig0)
    else s.trig0 := by
  rw [sampleStep_of_play s h]
  simp [playingSample_trig0, trackStage_trig0]

theorem sampleStep_pitch (h : s.eng.play = true) : (sampleStep s).pitch =
    if clkTicks s.clk then
      (if (advanceTrig s.trig1).currentActive then { advancePitch s.pitch with cur := 0 } else advancePitch s.pitch)
    else s.pitch := by
  rw [sampleStep_of_play s h]
  simp [playingSample_pitch, trackStage_pitch]

end Sys2Proof.Machine
end

