-- ==== Sys2Proof/Laws/Decode.lean ====
section
/-! SUPPORT. The fields of a command word: what packing puts there decoding finds there, and each form's
check from the fields. -/

namespace Sys2Proof

open Sys2Proof.Machine

theorem opOf_packCommand (op sel : BitVec 8) (idx : BitVec 16) (arg : Word) :
    opOf (packCommand op sel idx arg) = op := by
  unfold opOf packCommand
  dsimp only
  apply BitVec.eq_of_toNat_eq
  rw [BitVec.extractLsb'_toNat, BitVec.toNat_append, BitVec.toNat_append,
    ← Nat.shiftLeft_add_eq_or_of_lt sel.isLt, ← Nat.shiftLeft_add_eq_or_of_lt idx.isLt]
  have := op.isLt
  have := sel.isLt
  have := idx.isLt
  simp only [Nat.shiftRight_eq_div_pow, Nat.shiftLeft_eq]
  omega

theorem selOf_packCommand (op sel : BitVec 8) (idx : BitVec 16) (arg : Word) :
    selOf (packCommand op sel idx arg) = sel := by
  unfold selOf packCommand
  dsimp only
  apply BitVec.eq_of_toNat_eq
  rw [BitVec.extractLsb'_toNat, BitVec.toNat_append, BitVec.toNat_append,
    ← Nat.shiftLeft_add_eq_or_of_lt sel.isLt, ← Nat.shiftLeft_add_eq_or_of_lt idx.isLt]
  have := op.isLt
  have := sel.isLt
  have := idx.isLt
  simp only [Nat.shiftRight_eq_div_pow, Nat.shiftLeft_eq]
  omega

theorem idxField_packCommand (op sel : BitVec 8) (idx : BitVec 16) (arg : Word) :
    idxField (packCommand op sel idx arg) = idx := by
  unfold idxField packCommand
  dsimp only
  apply BitVec.eq_of_toNat_eq
  rw [BitVec.extractLsb'_toNat, BitVec.toNat_append, BitVec.toNat_append,
    ← Nat.shiftLeft_add_eq_or_of_lt sel.isLt, ← Nat.shiftLeft_add_eq_or_of_lt idx.isLt]
  have := op.isLt
  have := sel.isLt
  have := idx.isLt
  simp only [Nat.shiftRight_eq_div_pow, Nat.shiftLeft_eq]
  omega

@[simp] theorem arg_packCommand (op sel : BitVec 8) (idx : BitVec 16) (arg : Word) :
    (packCommand op sel idx arg).arg = arg := rfl

theorem idxOf_packCommand (op sel : BitVec 8) (i : Nat) (arg : Word) (h : i < 2 ^ 16) :
    idxOf (packCommand op sel (BitVec.ofNat 16 i) arg) = i := by
  unfold idxOf
  rw [idxField_packCommand, BitVec.toNat_ofNat, Nat.mod_eq_of_lt h]

/-- A command word is its three fields (R43). -/
theorem cmd_eq_packCommand (c : Command) : packCommand (opOf c) (selOf c) (idxField c) c.arg = c := by
  cases c with
  | mk cmd arg =>
    unfold packCommand opOf selOf idxField
    dsimp only
    congr 1
    apply BitVec.eq_of_toNat_eq
    rw [BitVec.toNat_append, BitVec.toNat_append]
    rw [← Nat.shiftLeft_add_eq_or_of_lt (BitVec.isLt _), ← Nat.shiftLeft_add_eq_or_of_lt (BitVec.isLt _)]
    rw [BitVec.extractLsb'_toNat, BitVec.extractLsb'_toNat, BitVec.extractLsb'_toNat]
    have := cmd.isLt
    simp only [Nat.shiftRight_eq_div_pow, Nat.shiftLeft_eq]
    omega

/-- Masking a command word masks its fields (R48: match and mask). -/
theorem cmd_packCommand_and (op sel m0 m1 : BitVec 8) (idx m2 : BitVec 16) (arg : Word) :
    (packCommand op sel idx arg).cmd &&& (m0 ++ m1 ++ m2) = (op &&& m0) ++ (sel &&& m1) ++ (idx &&& m2) := by
  show (op ++ sel ++ idx) &&& (m0 ++ m1 ++ m2) = _
  rw [BitVec.and_append, BitVec.and_append]

/-- Two command words are equal when their fields are. -/
theorem cmd_inj (op op' sel sel' : BitVec 8) (idx idx' : BitVec 16) :
    (op ++ sel ++ idx : BitVec 32) = op' ++ sel' ++ idx' ↔ op = op' ∧ sel = sel' ∧ idx = idx' := by
  constructor
  · intro h
    have hc : packCommand op sel idx 0 = packCommand op' sel' idx' 0 := congrArg (Command.mk · 0) h
    have h1 := congrArg opOf hc
    have h2 := congrArg selOf hc
    have h3 := congrArg idxField hc
    rw [opOf_packCommand, opOf_packCommand] at h1
    rw [selOf_packCommand, selOf_packCommand] at h2
    rw [idxField_packCommand, idxField_packCommand] at h3
    exact ⟨h1, h2, h3⟩
  · rintro ⟨rfl, rfl, rfl⟩
    rfl

/-- What the mask and the pattern of a row say of a command word's fields. -/
theorem cmd_and_eq_iff (c : Command) (op m0 m1 : BitVec 8) (m2 : BitVec 16) :
    c.cmd &&& (m0 ++ m1 ++ m2) = op ++ 0#8 ++ 0#16 ↔
      opOf c &&& m0 = op ∧ selOf c &&& m1 = 0#8 ∧ idxField c &&& m2 = 0#16 := by
  have h := cmd_packCommand_and (opOf c) (selOf c) m0 m1 (idxField c) m2 c.arg
  rw [cmd_eq_packCommand] at h
  rw [h, cmd_inj]

/-! Selector numbers and units name each other. -/

@[simp] theorem seqSelOf_number (u : SeqSel) : seqSelOf (seqSelNumber u) = some u := by cases u <;> rfl
@[simp] theorem trigSelOf_number (u : TrigSel) : trigSelOf (trigSelNumber u) = some u := by cases u <;> rfl
@[simp] theorem envSelOf_number (u : EnvSel) : envSelOf (envSelNumber u) = some u := by cases u <;> rfl
@[simp] theorem halfSelOf_number (u : HalfSel) : halfSelOf (halfSelNumber u) = some u := by cases u <;> rfl
@[simp] theorem channelSelOf_number (u : ChannelSel) : channelSelOf (channelSelNumber u) = some u := by
  cases u <;> rfl
@[simp] theorem coefSelOf_number (u : CoefSel) : coefSelOf (coefSelNumber u) = some u := by cases u <;> rfl
@[simp] theorem histSelOf_number (u : HistSel) : histSelOf (histSelNumber u) = some u := by cases u <;> rfl
@[simp] theorem sineSelOf_number (u : SineSel) : sineSelOf (sineSelNumber u) = some u := by cases u <;> rfl

theorem seqSelNumber_of (v : BitVec 8) (u : SeqSel) (h : seqSelOf v = some u) : seqSelNumber u = v := by
  unfold seqSelOf at h
  split_ifs at h <;> cases h <;> simp [seqSelNumber, *]
theorem trigSelNumber_of (v : BitVec 8) (u : TrigSel) (h : trigSelOf v = some u) : trigSelNumber u = v := by
  unfold trigSelOf at h
  split_ifs at h <;> cases h <;> simp [trigSelNumber, *]
theorem envSelNumber_of (v : BitVec 8) (u : EnvSel) (h : envSelOf v = some u) : envSelNumber u = v := by
  unfold envSelOf at h
  split_ifs at h <;> cases h <;> simp [envSelNumber, *]
theorem halfSelNumber_of (v : BitVec 8) (u : HalfSel) (h : halfSelOf v = some u) : halfSelNumber u = v := by
  unfold halfSelOf at h
  split_ifs at h <;> cases h <;> simp [halfSelNumber, *]
theorem channelSelNumber_of (v : BitVec 8) (u : ChannelSel) (h : channelSelOf v = some u) :
    channelSelNumber u = v := by
  unfold channelSelOf at h
  split_ifs at h <;> cases h <;> simp [channelSelNumber, *]
theorem coefSelNumber_of (v : BitVec 8) (u : CoefSel) (h : coefSelOf v = some u) : coefSelNumber u = v := by
  unfold coefSelOf at h
  split_ifs at h <;> cases h <;> simp [coefSelNumber, *]
theorem histSelNumber_of (v : BitVec 8) (u : HistSel) (h : histSelOf v = some u) : histSelNumber u = v := by
  unfold histSelOf at h
  split_ifs at h <;> cases h <;> simp [histSelNumber, *]
theorem sineSelNumber_of (v : BitVec 8) (u : SineSel) (h : sineSelOf v = some u) : sineSelNumber u = v := by
  unfold sineSelOf at h
  split_ifs at h <;> cases h <;> simp [sineSelNumber, *]

/-! What each form answers (R47). -/

theorem formN_eq_ok_iff (c : Command) (i j : Instr) :
    formN c i = .ok j ↔ selOf c = 0 ∧ idxField c = 0 ∧ i = j := by
  unfold formN
  split <;> rename_i h
  · simp only [reduceCtorEq, false_iff]
    rintro ⟨h1, h2, -⟩
    exact h.elim (fun h => h h1) (fun h => h h2)
  · push Not at h
    simp [h]

theorem formS_eq_ok_iff {σ : Type} (c : Command) (unitOf : BitVec 8 → Option σ) (mk : σ → Instr) (j : Instr) :
    formS c unitOf mk = .ok j ↔ idxField c = 0 ∧ ∃ u, unitOf (selOf c) = some u ∧ mk u = j := by
  unfold formS
  split <;> rename_i h
  · simp only [reduceCtorEq, false_iff]
    exact fun hc => h hc.1
  · rw [ne_eq, not_not] at h
    split <;> simp [*]

theorem formSX_eq_ok_iff {σ : Type} (c : Command) (unitOf : BitVec 8 → Option σ) (mk : σ → Instr) (j : Instr) :
    formSX c unitOf mk = .ok j ↔ ∃ u, unitOf (selOf c) = some u ∧ mk u = j := by
  unfold formSX
  split <;> simp [*]

theorem formX_eq_ok_iff (c : Command) (i j : Instr) : formX c i = .ok j ↔ selOf c = 0 ∧ i = j := by
  unfold formX
  split <;> rename_i h
  · simp only [reduceCtorEq, false_iff]
    exact fun hc => h hc.1
  · rw [ne_eq, not_not] at h
    simp [h]

/-- The flag field of Q_NOTE_TO_HZ with its reserved bits zero is the flag (R90). -/
theorem flag_of_idxField (v : BitVec 16) (h : v.extractLsb' 1 15 = 0) : v = if v.getLsbD 0 then 1 else 0 := by
  have h1 := congrArg BitVec.toNat h
  rw [BitVec.extractLsb'_toNat, Nat.shiftRight_eq_div_pow] at h1
  have h2 := v.isLt
  have h3 : (0 : BitVec 15).toNat = 0 := rfl
  have h4 : v.toNat = 0 ∨ v.toNat = 1 := by omega
  rcases h4 with h4 | h4
  · obtain rfl : v = 0 := BitVec.eq_of_toNat_eq h4
    rfl
  · obtain rfl : v = 1 := BitVec.eq_of_toNat_eq h4
    rfl

theorem formFlag_eq_ok_iff (c : Command) (mk : Bool → Instr) (j : Instr) :
    formFlag c mk = .ok j ↔
      selOf c = 0 ∧ (idxField c).extractLsb' 1 15 = 0 ∧ mk ((idxField c).getLsbD 0) = j := by
  unfold formFlag
  split <;> rename_i h
  · simp only [reduceCtorEq, false_iff]
    rintro ⟨h1, h2, -⟩
    exact h.elim (fun h => h h1) (fun h => h h2)
  · push Not at h
    simp only [Decoded.ok.injEq, h, true_and]

/-! Operands read back what was written (R46). -/

@[simp] theorem asI32_patternOfInt (n : Int) (h1 : -(2 ^ 31) ≤ n) (h2 : n < 2 ^ 31) :
    asI32 (patternOfInt n) = n := by
  unfold asI32 patternOfInt
  rw [BitVec.toInt_ofInt]
  simp only [Int.bmod]
  split <;> omega

theorem asI32_of_fits (n : Int) (h : fitsI32 n = true) : asI32 (patternOfInt n) = n := by
  unfold fitsI32 at h
  rw [Bool.and_eq_true, decide_eq_true_eq, decide_eq_true_eq] at h
  exact asI32_patternOfInt n h.1 h.2

@[simp] theorem patternOfInt_asI32 (w : Word) : patternOfInt (asI32 w) = w := by
  unfold asI32 patternOfInt
  exact BitVec.ofInt_toInt

theorem fitsI32_asI32 (w : Word) : fitsI32 (asI32 w) = true := by
  unfold fitsI32 asI32
  have h1 := w.toInt_lt
  have h2 := w.le_toInt
  rw [Bool.and_eq_true, decide_eq_true_eq, decide_eq_true_eq]
  constructor <;> omega

theorem asU32_of_fits (n : Nat) (h : fitsU32 n = true) : asU32 (BitVec.ofNat 32 n) = n := by
  unfold fitsU32 at h
  unfold asU32
  rw [BitVec.toNat_ofNat, Nat.mod_eq_of_lt (of_decide_eq_true h)]

@[simp] theorem asF32_bits (f : F32) : asF32 f.bits = f := rfl
@[simp] theorem bits_asF32 (w : Word) : (asF32 w).bits = w := rfl

/-! Bytes of a serialised word (R34). -/

theorem wordOfBytes_bytesOfWord (w : Word) :
    wordOfBytes .littleEndian (w.extractLsb' 0 8) (w.extractLsb' 8 8) (w.extractLsb' 16 8) (w.extractLsb' 24 8) =
      w := by
  unfold wordOfBytes
  dsimp only
  apply BitVec.eq_of_toNat_eq
  rw [BitVec.toNat_append, BitVec.toNat_append, BitVec.toNat_append]
  rw [← Nat.shiftLeft_add_eq_or_of_lt (BitVec.isLt _), ← Nat.shiftLeft_add_eq_or_of_lt (BitVec.isLt _),
    ← Nat.shiftLeft_add_eq_or_of_lt (BitVec.isLt _)]
  simp only [BitVec.extractLsb'_toNat]
  have := w.isLt
  simp only [Nat.shiftRight_eq_div_pow, Nat.shiftLeft_eq]
  omega

/-- Eight bytes carry the command they were made from, in either order (R34, R43). -/
theorem commandOfBytes_bytesOfCommand (order : ByteOrder) (c : Command) :
    commandOfBytes order (bytesOfCommand order c) = some c := by
  have h := congrArg some (congrArg₂ Command.mk (wordOfBytes_bytesOfWord c.cmd) (wordOfBytes_bytesOfWord c.arg))
  cases order <;> exact h

end Sys2Proof
end

