-- ==== Sys2Proof/Laws/FloatOrder.lean ====
section
/-! SUPPORT. Rounding as one monotone function of the exact signed result: the key of every operator's result
on finite operands is `roundKey` of the exact result, so bounds on exact results become bounds on rounded ones. -/

namespace Sys2Proof

/-- The key of the value that the exact `z / d` units round to. -/
def roundKey (z : Int) (d : Nat) : Int :=
  if z < 0 then -(F32.roundMag z.natAbs d : Int) else F32.roundMag z.natAbs d

theorem F32.roundMag_zero (d : Nat) (hd : 0 < d) : F32.roundMag 0 d = 0 := by
  have := F32.roundMag_exact 0 d hd (Nat.zero_le _)
  rwa [F32.unitsOf_zero, Nat.zero_mul] at this

theorem roundKey_mono (z z' : Int) (d d' : Nat) (hd : 0 < d) (hd' : 0 < d') (h : z * d' ≤ z' * d) :
    roundKey z d ≤ roundKey z' d' := by
  have hdz : (0 : Int) < d := by exact_mod_cast hd
  have hdz' : (0 : Int) < d' := by exact_mod_cast hd'
  unfold roundKey
  rcases lt_or_ge z 0 with h1 | h1 <;> rcases lt_or_ge z' 0 with h2 | h2
  · rw [if_pos h1, if_pos h2]
    have := F32.roundMag_mono z'.natAbs d' z.natAbs d hd' hd (by
      zify
      rw [abs_of_neg h1, abs_of_neg h2]
      linarith)
    omega
  · rw [if_pos h1, if_neg (by omega)]
    omega
  · exfalso
    have h3 : 0 ≤ z * d' := by positivity
    have h4 : z' * d < 0 := by nlinarith
    omega
  · rw [if_neg (by omega), if_neg (by omega)]
    have := F32.roundMag_mono z.natAbs d z'.natAbs d' hd hd' (by
      zify
      rw [abs_of_nonneg h1, abs_of_nonneg h2]
      exact h)
    omega

theorem F32.natAbs_units (a : F32) : a.units.natAbs = a.mag := by
  unfold F32.units
  split <;> simp

/-- A value that needs no rounding keeps its key. -/
theorem roundKey_units (a : F32) (d : Nat) (hd : 0 < d) (h : a.isFinite = true) :
    roundKey (a.units * d) d = a.key := by
  have hl := ((F32.isFinite_iff a).1 h).le
  have e : (a.units * (d : Int)).natAbs = F32.unitsOf a.low * d := by
    rw [Int.natAbs_mul, F32.natAbs_units, Int.natAbs_natCast]
    rfl
  unfold roundKey
  rw [e, F32.roundMag_exact _ _ hd hl]
  have hdz : (0 : Int) < d := by exact_mod_cast hd
  have h0 := F32.mag_eq_zero_iff a
  unfold F32.key F32.units
  cases a.sign
  · rw [if_neg (by simp; positivity)]
    rfl
  · simp only [if_true]
    rcases Nat.eq_zero_or_pos a.mag with hm | hm
    · rw [hm, h0.1 hm]
      simp
    · have hmz : (0 : Int) < a.mag := by exact_mod_cast hm
      rw [if_pos (by nlinarith)]

theorem F32.units_nonneg_iff (a : F32) : 0 ≤ a.units ↔ 0 ≤ a.key := by
  have h0 := F32.mag_eq_zero_iff a
  unfold F32.units F32.key
  cases a.sign <;> simp only [Bool.false_eq_true, if_true, if_false] <;> omega

theorem F32.units_pos_iff (a : F32) : 0 < a.units ↔ 0 < a.key := by
  have h0 := F32.mag_eq_zero_iff a
  unfold F32.units F32.key
  cases a.sign <;> simp only [Bool.false_eq_true, if_true, if_false] <;> omega

theorem key_pack_round (z : Int) (d : Nat) :
    (F32.pack (decide (z < 0)) (F32.roundMag z.natAbs d)).key = roundKey z d := by
  have := F32.roundMag_le z.natAbs d
  have := F32.infMag_lt
  rw [F32.key_pack _ _ (by omega)]
  unfold roundKey
  simp only [decide_eq_true_eq]

/-- The sum of finite values: no NaN, and the rounded exact sum. -/
theorem F32.key_add (a b : F32) (ha : a.isFinite = true) (hb : b.isFinite = true) :
    (a.add b).isNaN = false ∧ (a.add b).key = roundKey (a.units + b.units) 1 := by
  rw [F32.add_finite a b ha hb]
  split
  · rename_i h
    rw [h]
    refine ⟨F32.isNaN_pack _ _ (Nat.zero_le _), ?_⟩
    rw [F32.key_pack _ _ (by norm_num)]
    unfold roundKey
    simp [F32.roundMag_zero]
  · exact ⟨F32.isNaN_pack_roundMag _ _ _, key_pack_round _ _⟩

theorem F32.key_sub (a b : F32) (ha : a.isFinite = true) (hb : b.isFinite = true) :
    (a.sub b).isNaN = false ∧ (a.sub b).key = roundKey (a.units - b.units) 1 := by
  rw [F32.sub_finite a b ha hb]
  split
  · rename_i h
    rw [h]
    refine ⟨F32.isNaN_pack _ _ (Nat.zero_le _), ?_⟩
    rw [F32.key_pack _ _ (by norm_num)]
    unfold roundKey
    simp [F32.roundMag_zero]
  · exact ⟨F32.isNaN_pack_roundMag _ _ _, key_pack_round _ _⟩

theorem key_pack_sign (b : Bool) (n d : Nat) (hd : 0 < d) :
    (F32.pack b (F32.roundMag n d)).key = roundKey (if b then -(n : Int) else n) d := by
  have := F32.roundMag_le n d
  have := F32.infMag_lt
  rw [F32.key_pack _ _ (by omega)]
  unfold roundKey
  cases b
  · simp
  · rcases Nat.eq_zero_or_pos n with h | h
    · subst h
      simp [F32.roundMag_zero, hd]
    · simp [h]

/-- The product of finite values. -/
theorem F32.key_mul (a b : F32) (ha : a.isFinite = true) (hb : b.isFinite = true) :
    (a.mul b).isNaN = false ∧ (a.mul b).key = roundKey (a.units * b.units) (2 ^ 149) := by
  rw [F32.mul_finite a b ha hb]
  refine ⟨F32.isNaN_pack_roundMag _ _ _, ?_⟩
  rw [key_pack_sign _ _ _ (by positivity)]
  congr 1
  unfold F32.units
  cases a.sign <;> cases b.sign <;> simp

/-- The quotient of a finite value by a positive finite one. -/
theorem F32.key_div (a b : F32) (ha : a.isFinite = true) (hb : b.isFinite = true) (h : 0 < b.key) :
    (a.div b).isNaN = false ∧ 0 < b.mag ∧ (a.div b).key = roundKey (a.units * 2 ^ 149) b.mag := by
  have hs : b.sign = false := by
    unfold F32.key at h
    cases hb : b.sign
    · rfl
    · rw [hb] at h; simp only [if_true] at h; omega
  have hl : b.low ≠ 0 := by
    intro h0
    unfold F32.key at h
    rw [h0, hs] at h
    simp at h
  have hm : 0 < b.mag := Nat.pos_of_ne_zero (by rw [ne_eq, F32.mag_eq_zero_iff]; exact hl)
  rw [F32.div_finite a b ha hb hl]
  refine ⟨F32.isNaN_pack_roundMag _ _ _, hm, ?_⟩
  rw [key_pack_sign _ _ _ hm, hs]
  congr 1
  unfold F32.units
  cases a.sign <;> simp

theorem F32.key_eq_infMag_or_finite (a : F32) (h : a.isNaN = false) :
    a.isFinite = true ∨ a.key = F32.infMag ∨ a.key = -(F32.infMag : Int) := by
  rw [F32.isNaN_eq_false_iff] at h
  rw [F32.isFinite_iff]
  rcases Nat.lt_or_ge a.low F32.infMag with h1 | h1
  · exact .inl h1
  · right
    have : a.low = F32.infMag := by omega
    unfold F32.key
    rw [this]
    cases a.sign <;> simp

/-- A value that is no NaN and lies between two finite keys is finite. -/
theorem F32.isFinite_of_key (a : F32) (h : a.isNaN = false) (h1 : -(F32.infMag : Int) < a.key)
    (h2 : a.key < F32.infMag) : a.isFinite = true := by
  rcases a.key_eq_infMag_or_finite h with h | h | h
  · exact h
  · omega
  · omega

/-- Two values with one nonzero key are one pattern. -/
theorem F32.eq_of_key_eq (a b : F32) (h : a.key = b.key) (h0 : a.key ≠ 0) : a = b := by
  apply F32.ext_sign_low
  · unfold F32.key at h h0
    cases ha : a.sign <;> cases hb : b.sign <;> rw [ha] at h h0 <;> rw [hb] at h <;>
      simp only [Bool.false_eq_true, if_true, if_false] at h h0 <;> first | rfl | omega
  · unfold F32.key at h h0
    cases ha : a.sign <;> cases hb : b.sign <;> rw [ha] at h h0 <;> rw [hb] at h <;>
      simp only [Bool.false_eq_true, if_true, if_false] at h h0 <;> omega

end Sys2Proof
end

