-- ==== Sys2Proof/Laws/PerInstr.lean ====
section
/-! SUPPORT. Statements made per instruction: the encoding of each matches a row of the opcode map (R48). -/

namespace Sys2Proof.Laws

open Sys2Proof Sys2Proof.Machine

namespace EncodeMatchesRow

/-- The word of `i` has the pattern of a row of R48 in the bits the row fixes, and a selector the row knows. -/
def Statement (i : Instr) : Prop :=
  ∃ r ∈ opcodeMap, (encode i).cmd &&& r.mask = r.pattern ∧ (selOf (encode i)).toNat < r.selLimit

/-- The word with fields `op`, `sel` and `idx` matches a row whose mask and pattern read them so. -/
theorem of_fields (op sel m1 : BitVec 8) (idx m2 : BitVec 16) (arg : Word) (n : Nat) (i : Instr)
    (he : encode i = packCommand op sel idx arg) (hr : ⟨op ++ 0#8 ++ 0#16, 0xFF#8 ++ m1 ++ m2, n⟩ ∈ opcodeMap)
    (hs : sel &&& m1 = 0#8) (hi : idx &&& m2 = 0#16) (hn : sel.toNat < n) : Statement i := by
  refine ⟨_, hr, ?_, ?_⟩
  · rw [he]
    show (packCommand op sel idx arg).cmd &&& (0xFF#8 ++ m1 ++ m2) = op ++ 0#8 ++ 0#16
    have hop : op &&& 0xFF#8 = op := BitVec.and_allOnes
    rw [cmd_packCommand_and, hop, hs, hi]
  · rw [he, selOf_packCommand]
    exact hn

theorem nop : Statement .nop :=
  of_fields 0x00 _ 0xFF#8 _ 0xFFFF#16 _ 1 _ rfl (by decide) rfl rfl (by decide)

theorem engGetId : Statement .engGetId :=
  of_fields 0x01 _ 0xFF#8 _ 0xFFFF#16 _ 1 _ rfl (by decide) rfl rfl (by decide)

theorem engGetStatus : Statement .engGetStatus :=
  of_fields 0x02 _ 0xFF#8 _ 0xFFFF#16 _ 1 _ rfl (by decide) rfl rfl (by decide)

theorem engGetErrCode : Statement .engGetErrCode :=
  of_fields 0x03 _ 0xFF#8 _ 0xFFFF#16 _ 1 _ rfl (by decide) rfl rfl (by decide)

theorem transportStart : Statement .transportStart :=
  of_fields 0x04 _ 0xFF#8 _ 0xFFFF#16 _ 1 _ rfl (by decide) rfl rfl (by decide)

theorem transportStop : Statement .transportStop :=
  of_fields 0x05 _ 0xFF#8 _ 0xFFFF#16 _ 1 _ rfl (by decide) rfl rfl (by decide)

theorem engGetOut (c : ChannelSel) : Statement (.engGetOut c) :=
  of_fields 0x06 _ 0x00#8 _ 0xFFFF#16 _ 2 _ rfl (by decide) BitVec.and_zero rfl (by cases c <;> decide)

theorem clkInit (f : F32) : Statement (.clkInit f) :=
  of_fields 0x10 _ 0xFF#8 _ 0xFFFF#16 _ 1 _ rfl (by decide) rfl rfl (by decide)

theorem clkSetFreq (f : F32) : Statement (.clkSetFreq f) :=
  of_fields 0x11 _ 0xFF#8 _ 0xFFFF#16 _ 1 _ rfl (by decide) rfl rfl (by decide)

theorem clkSetBpm (bpm : F32) : Statement (.clkSetBpm bpm) :=
  of_fields 0x12 _ 0xFF#8 _ 0xFFFF#16 _ 1 _ rfl (by decide) rfl rfl (by decide)

theorem clkSetMult (k : Int) : Statement (.clkSetMult k) :=
  of_fields 0x13 _ 0xFF#8 _ 0xFFFF#16 _ 1 _ rfl (by decide) rfl rfl (by decide)

theorem clkSetPhaseToEnd : Statement .clkSetPhaseToEnd :=
  of_fields 0x14 _ 0xFF#8 _ 0xFFFF#16 _ 1 _ rfl (by decide) rfl rfl (by decide)

theorem clkGetFreq : Statement .clkGetFreq :=
  of_fields 0x18 _ 0xFF#8 _ 0xFFFF#16 _ 1 _ rfl (by decide) rfl rfl (by decide)

theorem clkGetMult : Statement .clkGetMult :=
  of_fields 0x19 _ 0xFF#8 _ 0xFFFF#16 _ 1 _ rfl (by decide) rfl rfl (by decide)

theorem clkGetPhase (h : HalfSel) : Statement (.clkGetPhase h) :=
  of_fields 0x1A _ 0x00#8 _ 0xFFFF#16 _ 2 _ rfl (by decide) BitVec.and_zero rfl (by cases h <;> decide)

theorem clkGetInc (h : HalfSel) : Statement (.clkGetInc h) :=
  of_fields 0x1B _ 0x00#8 _ 0xFFFF#16 _ 2 _ rfl (by decide) BitVec.and_zero rfl (by cases h <;> decide)

theorem seqInit (q : SeqSel) (n : Nat) : Statement (.seqInit q n) :=
  of_fields 0x20 _ 0x00#8 _ 0xFFFF#16 _ 3 _ rfl (by decide) BitVec.and_zero rfl (by cases q <;> decide)

theorem seqSetCurrent (q : SeqSel) (i : Nat) : Statement (.seqSetCurrent q i) :=
  of_fields 0x21 _ 0x00#8 _ 0x0000#16 _ 3 _ rfl (by decide) BitVec.and_zero BitVec.and_zero (by cases q <;> decide)

theorem trigToggle (t : TrigSel) (i : Nat) : Statement (.trigToggle t i) :=
  of_fields 0x22 _ 0x00#8 _ 0x0000#16 _ 2 _ rfl (by decide) BitVec.and_zero BitVec.and_zero (by cases t <;> decide)

theorem pitchSetNote (i : Nat) (n : Int) : Statement (.pitchSetNote i n) :=
  of_fields 0x23 _ 0xFF#8 _ 0x0000#16 _ 1 _ rfl (by decide) rfl BitVec.and_zero (by decide)

theorem pitchSetTranspose (d : Int) : Statement (.pitchSetTranspose d) :=
  of_fields 0x24 _ 0xFF#8 _ 0xFFFF#16 _ 1 _ rfl (by decide) rfl rfl (by decide)

theorem seqGetCurrent (q : SeqSel) : Statement (.seqGetCurrent q) :=
  of_fields 0x28 _ 0x00#8 _ 0xFFFF#16 _ 3 _ rfl (by decide) BitVec.and_zero rfl (by cases q <;> decide)

theorem seqGetLength (q : SeqSel) : Statement (.seqGetLength q) :=
  of_fields 0x29 _ 0x00#8 _ 0xFFFF#16 _ 3 _ rfl (by decide) BitVec.and_zero rfl (by cases q <;> decide)

theorem trigGetStep (t : TrigSel) (i : Nat) : Statement (.trigGetStep t i) :=
  of_fields 0x2A _ 0x00#8 _ 0x0000#16 _ 2 _ rfl (by decide) BitVec.and_zero BitVec.and_zero (by cases t <;> decide)

theorem trigGetCurrentActive (t : TrigSel) : Statement (.trigGetCurrentActive t) :=
  of_fields 0x2B _ 0x00#8 _ 0xFFFF#16 _ 2 _ rfl (by decide) BitVec.and_zero rfl (by cases t <;> decide)

theorem pitchGetNote (i : Nat) : Statement (.pitchGetNote i) :=
  of_fields 0x2C _ 0xFF#8 _ 0x0000#16 _ 1 _ rfl (by decide) rfl BitVec.and_zero (by decide)

theorem pitchGetTranspose : Statement .pitchGetTranspose :=
  of_fields 0x2D _ 0xFF#8 _ 0xFFFF#16 _ 1 _ rfl (by decide) rfl rfl (by decide)

theorem pitchGetCurrentFreq : Statement .pitchGetCurrentFreq :=
  of_fields 0x2E _ 0xFF#8 _ 0xFFFF#16 _ 1 _ rfl (by decide) rfl rfl (by decide)

theorem pitchGetCurrentName : Statement .pitchGetCurrentName :=
  of_fields 0x2F _ 0xFF#8 _ 0xFFFF#16 _ 1 _ rfl (by decide) rfl rfl (by decide)

theorem qSetKey (k : Int) : Statement (.qSetKey k) :=
  of_fields 0x30 _ 0xFF#8 _ 0xFFFF#16 _ 1 _ rfl (by decide) rfl rfl (by decide)

theorem qSetScale (k : Int) : Statement (.qSetScale k) :=
  of_fields 0x31 _ 0xFF#8 _ 0xFFFF#16 _ 1 _ rfl (by decide) rfl rfl (by decide)

theorem qQuantize (n : Int) : Statement (.qQuantize n) :=
  of_fields 0x32 _ 0xFF#8 _ 0xFFFF#16 _ 1 _ rfl (by decide) rfl rfl (by decide)

theorem qNoteToHz (quantized : Bool) (n : Int) : Statement (.qNoteToHz quantized n) :=
  of_fields 0x33 _ 0xFF#8 _ 0xFFFE#16 _ 1 _ rfl (by decide) rfl (by cases quantized <;> decide) (by decide)

theorem qNoteToName (n : Int) : Statement (.qNoteToName n) :=
  of_fields 0x34 _ 0xFF#8 _ 0xFFFF#16 _ 1 _ rfl (by decide) rfl rfl (by decide)

theorem qGetKey : Statement .qGetKey :=
  of_fields 0x38 _ 0xFF#8 _ 0xFFFF#16 _ 1 _ rfl (by decide) rfl rfl (by decide)

theorem qGetScale : Statement .qGetScale :=
  of_fields 0x39 _ 0xFF#8 _ 0xFFFF#16 _ 1 _ rfl (by decide) rfl rfl (by decide)

theorem oscSetFreq (f : F32) : Statement (.oscSetFreq f) :=
  of_fields 0x40 _ 0xFF#8 _ 0xFFFF#16 _ 1 _ rfl (by decide) rfl rfl (by decide)

theorem oscSetAmp (a : F32) : Statement (.oscSetAmp a) :=
  of_fields 0x41 _ 0xFF#8 _ 0xFFFF#16 _ 1 _ rfl (by decide) rfl rfl (by decide)

theorem oscSetMode (m : Word) : Statement (.oscSetMode m) :=
  of_fields 0x42 _ 0xFF#8 _ 0xFFFF#16 _ 1 _ rfl (by decide) rfl rfl (by decide)

theorem oscGetFreq : Statement .oscGetFreq :=
  of_fields 0x48 _ 0xFF#8 _ 0xFFFF#16 _ 1 _ rfl (by decide) rfl rfl (by decide)

theorem oscGetAmp : Statement .oscGetAmp :=
  of_fields 0x49 _ 0xFF#8 _ 0xFFFF#16 _ 1 _ rfl (by decide) rfl rfl (by decide)

theorem oscGetMode : Statement .oscGetMode :=
  of_fields 0x4A _ 0xFF#8 _ 0xFFFF#16 _ 1 _ rfl (by decide) rfl rfl (by decide)

theorem oscGetPhase : Statement .oscGetPhase :=
  of_fields 0x4B _ 0xFF#8 _ 0xFFFF#16 _ 1 _ rfl (by decide) rfl rfl (by decide)

theorem oscGetSineState (r : SineSel) : Statement (.oscGetSineState r) :=
  of_fields 0x4C _ 0x00#8 _ 0xFFFF#16 _ 3 _ rfl (by decide) BitVec.and_zero rfl (by cases r <;> decide)

theorem filtSetFreq (f : F32) : Statement (.filtSetFreq f) :=
  of_fields 0x50 _ 0xFF#8 _ 0xFFFF#16 _ 1 _ rfl (by decide) rfl rfl (by decide)

theorem filtSetQ (q : F32) : Statement (.filtSetQ q) :=
  of_fields 0x51 _ 0xFF#8 _ 0xFFFF#16 _ 1 _ rfl (by decide) rfl rfl (by decide)

theorem filtAddFreq (d : F32) : Statement (.filtAddFreq d) :=
  of_fields 0x52 _ 0xFF#8 _ 0xFFFF#16 _ 1 _ rfl (by decide) rfl rfl (by decide)

theorem filtSetEnvDepth (d : F32) : Statement (.filtSetEnvDepth d) :=
  of_fields 0x53 _ 0xFF#8 _ 0xFFFF#16 _ 1 _ rfl (by decide) rfl rfl (by decide)

theorem filtGetFreq : Statement .filtGetFreq :=
  of_fields 0x58 _ 0xFF#8 _ 0xFFFF#16 _ 1 _ rfl (by decide) rfl rfl (by decide)

theorem filtGetQ : Statement .filtGetQ :=
  of_fields 0x59 _ 0xFF#8 _ 0xFFFF#16 _ 1 _ rfl (by decide) rfl rfl (by decide)

theorem filtGetMod : Statement .filtGetMod :=
  of_fields 0x5A _ 0xFF#8 _ 0xFFFF#16 _ 1 _ rfl (by decide) rfl rfl (by decide)

theorem filtGetEffFreq : Statement .filtGetEffFreq :=
  of_fields 0x5B _ 0xFF#8 _ 0xFFFF#16 _ 1 _ rfl (by decide) rfl rfl (by decide)

theorem filtGetEnvDepth : Statement .filtGetEnvDepth :=
  of_fields 0x5C _ 0xFF#8 _ 0xFFFF#16 _ 1 _ rfl (by decide) rfl rfl (by decide)

theorem filtGetCoef (r : CoefSel) : Statement (.filtGetCoef r) :=
  of_fields 0x5D _ 0x00#8 _ 0xFFFF#16 _ 5 _ rfl (by decide) BitVec.and_zero rfl (by cases r <;> decide)

theorem filtGetState (r : HistSel) : Statement (.filtGetState r) :=
  of_fields 0x5E _ 0x00#8 _ 0xFFFF#16 _ 4 _ rfl (by decide) BitVec.and_zero rfl (by cases r <;> decide)

theorem envSetAttack (e : EnvSel) (t : F32) : Statement (.envSetAttack e t) :=
  of_fields 0x60 _ 0x00#8 _ 0xFFFF#16 _ 2 _ rfl (by decide) BitVec.and_zero rfl (by cases e <;> decide)

theorem envSetDecay (e : EnvSel) (t : F32) : Statement (.envSetDecay e t) :=
  of_fields 0x61 _ 0x00#8 _ 0xFFFF#16 _ 2 _ rfl (by decide) BitVec.and_zero rfl (by cases e <;> decide)

theorem envTrigger (e : EnvSel) : Statement (.envTrigger e) :=
  of_fields 0x62 _ 0x00#8 _ 0xFFFF#16 _ 2 _ rfl (by decide) BitVec.and_zero rfl (by cases e <;> decide)

theorem envGetAttack (e : EnvSel) : Statement (.envGetAttack e) :=
  of_fields 0x68 _ 0x00#8 _ 0xFFFF#16 _ 2 _ rfl (by decide) BitVec.and_zero rfl (by cases e <;> decide)

theorem envGetDecay (e : EnvSel) : Statement (.envGetDecay e) :=
  of_fields 0x69 _ 0x00#8 _ 0xFFFF#16 _ 2 _ rfl (by decide) BitVec.and_zero rfl (by cases e <;> decide)

theorem envGetOutput (e : EnvSel) : Statement (.envGetOutput e) :=
  of_fields 0x6A _ 0x00#8 _ 0xFFFF#16 _ 2 _ rfl (by decide) BitVec.and_zero rfl (by cases e <;> decide)

theorem envGetStage (e : EnvSel) : Statement (.envGetStage e) :=
  of_fields 0x6B _ 0x00#8 _ 0xFFFF#16 _ 2 _ rfl (by decide) BitVec.and_zero rfl (by cases e <;> decide)

theorem envGetTimer (e : EnvSel) : Statement (.envGetTimer e) :=
  of_fields 0x6C _ 0x00#8 _ 0xFFFF#16 _ 2 _ rfl (by decide) BitVec.and_zero rfl (by cases e <;> decide)

end EncodeMatchesRow
end Sys2Proof.Laws
end

