-- ==== Sys2Proof/Laws/Voice.lean ====
section
/-! SUPPORT. What each internal operation of the voice leaves, in the relations of Safety.lean, and the parts of
the sample step that come out of them. -/

namespace Sys2Proof.Machine

open Sys2Proof

theorem ofInt_zero : F32.ofInt 0 = ⟨0⟩ := by decide +kernel

/-- R96. -/
theorem resynced_oscResync (o : Oscillator) : Resynced (oscResync o) := ⟨rfl, rfl, rfl⟩

/-- R97. -/
theorem tunedTo_oscSetFreqInt (f : F32) (o : Oscillator) : TunedTo f o (oscSetFreqInt f o) := by
  refine ⟨?_, rfl, resynced_oscResync _, rfl, rfl, rfl⟩
  rw [← nyqF32_reference]
  rfl

/-- R98. -/
theorem isBlep_blep (p dt : F32) : IsBlep p dt (blep p dt) := by
  refine ⟨fun h => ⟨_, rfl, ?_⟩, fun h h' => ⟨_, rfl, ?_⟩, fun h h' => ?_⟩
  · simp [blep, h]
  · simp [blep, h, h']
  · simp [blep, h, h', ofInt_zero]

/-- R99. -/
theorem oscStep_oscProcess (o : Oscillator) : OscStep o (oscProcess o) (oscOut o) := by
  have ph : (oscProcess o).phase = nextPhase o.phase o.inc := by
    unfold oscProcess
    split <;> rfl
  refine ⟨fun h => ?_, fun h => ⟨_, rfl, ?_⟩, fun h => ⟨_, isBlep_blep _ _, ?_⟩, fun h0 h1 h2 => ?_,
    fun h => ?_, fun h => ?_, fun h => ?_, ?_⟩
  · simp [oscProcess, oscOut, oscWave, sineNext, h]
  · simp [oscOut, oscWave, h, triangle, sawRamp, F32.abs]
  · simp [oscOut, oscWave, h, sawtooth, sawRamp]
  · unfold oscOut oscWave
    rw [if_neg h0, if_neg h1, if_neg h2, ofInt_zero]
  · unfold oscProcess
    rw [if_neg h]
    exact ⟨rfl, rfl⟩
  · rw [ph]
    simp [nextPhase, h]
  · rw [ph]
    simp [nextPhase, h]
  · simp

/-- R126. -/
theorem envStep_envProcess (e : Envelope) : EnvStep e (envProcess e) := by
  refine ⟨fun h => ?_, fun h => ⟨_, rfl, ?_⟩, fun h => ⟨_, _, rfl, rfl, ?_⟩⟩
  · simp [envProcess, h]
  · simp [envProcess, h, envAttack, invSr_reference, ofInt_zero]
  · simp [envProcess, h, envDecay, invSr_reference, ofInt_zero]

/-- R125. -/
theorem envTriggered_envTriggerInt (e : Envelope) : EnvTriggered e (envTriggerInt e) := by
  simp [EnvTriggered, envTriggerInt, ofInt_zero]

/-- R109. -/
theorem isDirectCoefs_coefDirect (f q : F32) : IsDirectCoefs f q (coefDirect Config.reference f q) :=
  ⟨_, _, _, _, rfl, rfl, rfl, rfl, rfl, rfl, rfl, rfl, rfl⟩

/-- R111 and then R112. -/
theorem filtStep_filtProcess (x0 : F32) (u : FilterUnit) :
    FiltStep x0 u (filtProcess x0 (filtRecompute u)) := by
  refine ⟨?_, ?_, ?_, ?_, ?_, ?_, ?_⟩ <;> simp only [filtProcess, filtRecompute, filtOut, clampFiltFreq, coefOf_reference]
  · exact isDirectCoefs_coefDirect _ _
  · simp only [and_self]

/-- R136: the synthesis, before its pair is delivered. -/
theorem synthesized_synthesize (s t : State) (tick trig : Bool) (hf : t.filt = s.filt)
    (ha : t.audioOut = s.audioOut) (hr : t.responses = s.responses) (hi : t.inputs = s.inputs) :
    Synthesized t.osc t.env0 t.env1 s ((synthesize tick trig t).deliver
      { left := (synthesize tick trig t).eng.outL, right := (synthesize tick trig t).eng.outR }) := by
  refine ⟨⟨rfl, envStep_envProcess _⟩, ⟨rfl, envStep_envProcess _⟩, ⟨rfl, oscStep_oscProcess _⟩, ?_,
    ⟨rfl, rfl⟩, ?_, ⟨hr, hi⟩⟩
  · rw [← hf]
    exact filtStep_filtProcess _ _
  · rw [← ha]
    rfl

end Sys2Proof.Machine
end

