-- ==== Sys2Proof/Tests/Slice0.lean ====
section
/-! SUPPORT. Tests: well-formedness, words written out from the encoding table, single steps with the values the
manual works out, and a witness for the hypotheses of every statement that has some. -/

-- One theorem after another: theorems that wait for the kernel side by side each hold a thread's stack.
set_option Elab.async false

namespace Sys2Proof.Tests

open Sys2Proof Sys2Proof.Machine

/-! ### Well-formedness: for each check an ill-formed term that it refuses -/

theorem test_wf_index_set_current : (Instr.seqSetCurrent .trig0 65536).wellFormed = false := by decide
theorem test_wf_index_toggle : (Instr.trigToggle .trig1 65536).wellFormed = false := by decide
theorem test_wf_index_set_note : (Instr.pitchSetNote 65536 0).wellFormed = false := by decide
theorem test_wf_note_set_note : (Instr.pitchSetNote 0 2147483648).wellFormed = false := by decide
theorem test_wf_index_get_step : (Instr.trigGetStep .trig0 65536).wellFormed = false := by decide
theorem test_wf_index_get_note : (Instr.pitchGetNote 65536).wellFormed = false := by decide
theorem test_wf_length : (Instr.seqInit .pitch 4294967296).wellFormed = false := by decide
theorem test_wf_multiplier : (Instr.clkSetMult (-2147483649)).wellFormed = false := by decide
theorem test_wf_transpose : (Instr.pitchSetTranspose 2147483648).wellFormed = false := by decide
theorem test_wf_key : (Instr.qSetKey 2147483648).wellFormed = false := by decide
theorem test_wf_scale : (Instr.qSetScale (-2147483649)).wellFormed = false := by decide
theorem test_wf_quantize : (Instr.qQuantize 2147483648).wellFormed = false := by decide
theorem test_wf_note_to_hz : (Instr.qNoteToHz true 2147483648).wellFormed = false := by decide
theorem test_wf_note_to_name : (Instr.qNoteToName (-2147483649)).wellFormed = false := by decide

/-! ### Decoding: words from the table of R48 and the examples of the rules -/

theorem test_decode_nop : decode ⟨0x00000000, 0⟩ = .ok .nop := by decide
theorem test_decode_eng_get_id : decode ⟨0x01000000, 0⟩ = .ok .engGetId := by decide
theorem test_decode_eng_get_status : decode ⟨0x02000000, 0⟩ = .ok .engGetStatus := by decide
theorem test_decode_eng_get_err_code : decode ⟨0x03000000, 0⟩ = .ok .engGetErrCode := by decide
theorem test_decode_transport_start : decode ⟨0x04000000, 0⟩ = .ok .transportStart := by decide
theorem test_decode_transport_stop : decode ⟨0x05000000, 0⟩ = .ok .transportStop := by decide
theorem test_decode_eng_get_out : decode ⟨0x06010000, 0⟩ = .ok (.engGetOut .right) := by decide
theorem test_decode_clk_init : decode ⟨0x10000000, 0x40000000⟩ = .ok (.clkInit ⟨0x40000000⟩) := by decide
theorem test_decode_clk_set_freq : decode ⟨0x11000000, 0x40800000⟩ = .ok (.clkSetFreq ⟨0x40800000⟩) := by decide
theorem test_decode_clk_set_bpm : decode ⟨0x12000000, 0x42F00000⟩ = .ok (.clkSetBpm ⟨0x42F00000⟩) := by decide
theorem test_decode_clk_set_mult : decode ⟨0x13000000, 0xFFFFFFFD⟩ = .ok (.clkSetMult (-3)) := by decide
theorem test_decode_clk_set_phase : decode ⟨0x14000000, 0⟩ = .ok .clkSetPhaseToEnd := by decide
theorem test_decode_clk_get_freq : decode ⟨0x18000000, 0⟩ = .ok .clkGetFreq := by decide
theorem test_decode_clk_get_mult : decode ⟨0x19000000, 0⟩ = .ok .clkGetMult := by decide
theorem test_decode_clk_get_phase : decode ⟨0x1A010000, 0⟩ = .ok (.clkGetPhase .hi) := by decide
theorem test_decode_clk_get_inc : decode ⟨0x1B000000, 0⟩ = .ok (.clkGetInc .lo) := by decide
theorem test_decode_seq_init : decode ⟨0x20020000, 0x10⟩ = .ok (.seqInit .pitch 16) := by decide
theorem test_decode_seq_set_current : decode ⟨0x21010001, 0⟩ = .ok (.seqSetCurrent .trig1 1) := by decide
theorem test_decode_trig_toggle : decode ⟨0x22000003, 0⟩ = .ok (.trigToggle .trig0 3) := by decide
theorem test_decode_pitch_set_note : decode ⟨0x23000003, 0x3D⟩ = .ok (.pitchSetNote 3 61) := by decide
theorem test_decode_pitch_set_transpose :
    decode ⟨0x24000000, 0xFFFFFF9C⟩ = .ok (.pitchSetTranspose (-100)) := by decide
theorem test_decode_seq_get_current : decode ⟨0x28020000, 0⟩ = .ok (.seqGetCurrent .pitch) := by decide
theorem test_decode_seq_get_length : decode ⟨0x29010000, 0⟩ = .ok (.seqGetLength .trig1) := by decide
theorem test_decode_trig_get_step : decode ⟨0x2A01003F, 0⟩ = .ok (.trigGetStep .trig1 63) := by decide
theorem test_decode_trig_get_current : decode ⟨0x2B000000, 0⟩ = .ok (.trigGetCurrentActive .trig0) := by decide
theorem test_decode_pitch_get_note : decode ⟨0x2C000005, 0⟩ = .ok (.pitchGetNote 5) := by decide
theorem test_decode_pitch_get_transpose : decode ⟨0x2D000000, 0⟩ = .ok .pitchGetTranspose := by decide
theorem test_decode_pitch_get_freq : decode ⟨0x2E000000, 0⟩ = .ok .pitchGetCurrentFreq := by decide
theorem test_decode_pitch_get_name : decode ⟨0x2F000000, 0⟩ = .ok .pitchGetCurrentName := by decide
theorem test_decode_q_set_key : decode ⟨0x30000000, 9⟩ = .ok (.qSetKey 9) := by decide
theorem test_decode_q_set_scale : decode ⟨0x31000000, 0xFFFFFFFF⟩ = .ok (.qSetScale (-1)) := by decide
theorem test_decode_q_quantize : decode ⟨0x32000000, 0x3D⟩ = .ok (.qQuantize 61) := by decide
theorem test_decode_q_note_to_hz : decode ⟨0x33000001, 0x3D⟩ = .ok (.qNoteToHz true 61) := by decide
theorem test_decode_q_note_to_name : decode ⟨0x34000000, 0x46⟩ = .ok (.qNoteToName 70) := by decide
theorem test_decode_q_get_key : decode ⟨0x38000000, 0⟩ = .ok .qGetKey := by decide
theorem test_decode_q_get_scale : decode ⟨0x39000000, 0⟩ = .ok .qGetScale := by decide
theorem test_decode_osc_set_freq : decode ⟨0x40000000, 0x445C0000⟩ = .ok (.oscSetFreq ⟨0x445C0000⟩) := by decide
theorem test_decode_osc_set_amp : decode ⟨0x41000000, 0x3F000000⟩ = .ok (.oscSetAmp ⟨0x3F000000⟩) := by decide
theorem test_decode_osc_set_mode : decode ⟨0x42000000, 7⟩ = .ok (.oscSetMode 7) := by decide
theorem test_decode_osc_get_freq : decode ⟨0x48000000, 0⟩ = .ok .oscGetFreq := by decide
theorem test_decode_osc_get_amp : decode ⟨0x49000000, 0⟩ = .ok .oscGetAmp := by decide
theorem test_decode_osc_get_mode : decode ⟨0x4A000000, 0⟩ = .ok .oscGetMode := by decide
theorem test_decode_osc_get_phase : decode ⟨0x4B000000, 0⟩ = .ok .oscGetPhase := by decide
theorem test_decode_osc_get_sine : decode ⟨0x4C020000, 0⟩ = .ok (.oscGetSineState .y2) := by decide
theorem test_decode_filt_set_freq : decode ⟨0x50000000, 0x447A0000⟩ = .ok (.filtSetFreq ⟨0x447A0000⟩) := by decide
theorem test_decode_filt_set_q : decode ⟨0x51000000, 0x40A00000⟩ = .ok (.filtSetQ ⟨0x40A00000⟩) := by decide
theorem test_decode_filt_add_freq : decode ⟨0x52000000, 0x43FA0000⟩ = .ok (.filtAddFreq ⟨0x43FA0000⟩) := by decide
theorem test_decode_filt_set_depth :
    decode ⟨0x53000000, 0x457A0000⟩ = .ok (.filtSetEnvDepth ⟨0x457A0000⟩) := by decide
theorem test_decode_filt_get_freq : decode ⟨0x58000000, 0⟩ = .ok .filtGetFreq := by decide
theorem test_decode_filt_get_q : decode ⟨0x59000000, 0⟩ = .ok .filtGetQ := by decide
theorem test_decode_filt_get_mod : decode ⟨0x5A000000, 0⟩ = .ok .filtGetMod := by decide
theorem test_decode_filt_get_eff : decode ⟨0x5B000000, 0⟩ = .ok .filtGetEffFreq := by decide
theorem test_decode_filt_get_depth : decode ⟨0x5C000000, 0⟩ = .ok .filtGetEnvDepth := by decide
theorem test_decode_filt_get_coef : decode ⟨0x5D030000, 0⟩ = .ok (.filtGetCoef .b1) := by decide
theorem test_decode_filt_get_state : decode ⟨0x5E030000, 0⟩ = .ok (.filtGetState .y2) := by decide
theorem test_decode_env_set_attack :
    decode ⟨0x60000000, 0x3F800000⟩ = .ok (.envSetAttack .env0 ⟨0x3F800000⟩) := by decide
theorem test_decode_env_set_decay :
    decode ⟨0x61010000, 0x41A00000⟩ = .ok (.envSetDecay .env1 ⟨0x41A00000⟩) := by decide
theorem test_decode_env_trigger : decode ⟨0x62010000, 0⟩ = .ok (.envTrigger .env1) := by decide
theorem test_decode_env_get_attack : decode ⟨0x68000000, 0⟩ = .ok (.envGetAttack .env0) := by decide
theorem test_decode_env_get_decay : decode ⟨0x69010000, 0⟩ = .ok (.envGetDecay .env1) := by decide
theorem test_decode_env_get_output : decode ⟨0x6A000000, 0⟩ = .ok (.envGetOutput .env0) := by decide
theorem test_decode_env_get_stage : decode ⟨0x6B010000, 0⟩ = .ok (.envGetStage .env1) := by decide
theorem test_decode_env_get_timer : decode ⟨0x6C000000, 0⟩ = .ok (.envGetTimer .env0) := by decide

/-- R142's example words and R47's order of checks: unassigned, reserved before selector, selector. -/
theorem test_decode_errors :
    decode ⟨0xFF000000, 0⟩ = .rejected .illegalOp ∧ decode ⟨0x00010000, 0⟩ = .rejected .reserved ∧
      decode ⟨0x20030001, 0⟩ = .rejected .reserved ∧ decode ⟨0x20030000, 0⟩ = .rejected .badSel ∧
      decode ⟨0x33000002, 0⟩ = .rejected .reserved := by decide

/-- R34: little-endian bytes, `CMD` first; and the bit numbering of the opcode table. -/
theorem test_decode_bytes :
    decodeBytes .littleEndian [0x03, 0x00, 0x00, 0x23, 0x3D, 0x00, 0x00, 0x00] = some (.ok (.pitchSetNote 3 61)) ∧
      decodeBytes .bigEndian [0x23, 0x00, 0x00, 0x03, 0x00, 0x00, 0x00, 0x3D] = some (.ok (.pitchSetNote 3 61)) ∧
      decodeBytes .littleEndian [0x00, 0x00, 0x00] = none ∧ decodeTableWord 32 0x22000003 = some (.trigToggle .trig0 3) ∧
      decodeTableWord 64 0x3D23000003 = some (.pitchSetNote 3 61) := by decide

/-! ### Constants and configuration -/

/-- R4: the parameters' stated bit patterns, and the table's length. -/
theorem test_constants :
    srF32 Config.reference = ⟨0x473B8000⟩ ∧ nyqF32 Config.reference = ⟨0x46BB8000⟩ ∧
      invSr Config.reference = ⟨0x37AEC33E⟩ ∧ minQ = ⟨0x3E4CCCCD⟩ ∧ F32.ofRat 1 1000 = ⟨0x3A83126F⟩ ∧
      F32.ofRat 1 10000 = Config.reference.ENV_EPS ∧ F32.ofInt (-2) = ⟨0xC0000000⟩ ∧
      Config.reference.MULT_TABLE.length = 9 := by decide +kernel

/-- R17, R82: ten rows of twelve degrees below 12, degree 0 in each. -/
theorem test_scale_table :
    Config.reference.SCALE_TABLE.length = Config.reference.NUM_SCALES ∧
      ∀ row ∈ Config.reference.SCALE_TABLE, row.length = 12 ∧ 0 ∈ row ∧ ∀ d ∈ row, d < 12 := by decide

/-- A legal configuration other than this hardware's (R4): each kind of parameter with another value. -/
def otherConfig : Config :=
  { Config.reference with
    SR := 96000
    N_MAX := 16
    PHASE_BITS := 40
    MULT_TABLE := [(3, 2), (1, 1)]
    MULT_UNITY := 1
    SCALE_TABLE := [[0, 7, 0, 0, 0, 0, 0, 0, 0, 0, 0, 0]]
    NUM_SCALES := 1
    DEFAULT_NOTE := 61
    FILTER_REALIZATION := .table
    NF := 2
    NQ := 2
    SIN := fun _ => F32.ofInt 1
    BYTE_ORDER := .bigEndian }

theorem otherConfig_legal : otherConfig.Legal := by
  constructor <;> decide

/-- R160, R54, R84, R96, R111, R126, R68 by hand in that configuration: 2^40 · 2 / 96000 = 22906492.245; the first
note from 61 on in the scale of C and G is 67; SEQ_INIT takes at most 16 steps; SIN is what is configured. -/
theorem test_other_configuration :
    (State.resetIn otherConfig).clk.inc = 22906492 ∧ (State.resetIn otherConfig).clk.multIdx = 1 ∧
      (State.resetIn otherConfig).pitch.noteAt 15 = 67 ∧ (State.resetIn otherConfig).osc.y1 = ⟨0x3F800000⟩ ∧
      execIn (.seqInit .trig0 17) (State.resetIn otherConfig) = .next ((State.resetIn otherConfig).rejectedWith 6) ∧
      coefOf otherConfig ⟨0x447A0000⟩ ⟨0x3F800000⟩ = coefDirect otherConfig (F32.ofInt 20000) (F32.ofRat 2 10) :=
  ⟨by decide +kernel, by decide, by decide, by decide +kernel, rfl, by decide +kernel⟩

/-- Two angles no rule names: the cosine of 0 and of the binary32 nearest π/2 (its distance from π/2). -/
theorem test_elementary :
    F32.cos ⟨0⟩ = ⟨0x3F800000⟩ ∧ F32.cos ⟨0x3FC90FDB⟩ = ⟨0xB33BBD2E⟩ ∧ F32.exp2 ⟨0x40400000⟩ = ⟨0x41000000⟩ ∧
      F32.exp2 ⟨0x3F000000⟩ = ⟨0x3FB504F3⟩ := by decide +kernel

/-- R110: the ends of the two grids. -/
theorem test_grids :
    gridF Config.reference 0 = ⟨0x41A00000⟩ ∧ gridF Config.reference 511 = ⟨0x469C4000⟩ ∧ gridQ Config.reference 0 = ⟨0x3E4CCCCD⟩ ∧ gridQ Config.reference 31 = ⟨0x40A00000⟩ := by
  decide +kernel

/-! ### Single steps, with the values the rules work out -/

/-- The state after one command, or the state itself where it does not answer a next one. -/
def after (i : Instr) (s : State) : State :=
  match exec i s with
  | .next t => t
  | _ => s

/-- The last response. -/
def answerOf (s : State) : Option Response := s.responses.getLast?

/-- The state after reset, playing. -/
def playing : State := State.reset.setEng { State.reset.eng with play := true }

/-- The state after reset and TRANSPORT_START, with step 0 of TRIG0 active. -/
def started : State := after .transportStart (after (.trigToggle .trig0 0) State.reset)

/-- A playing state whose clock ticks on every sample, with the tracks of R81 item 2. -/
def everySample (cur : BitVec 16) : State :=
  (playing.setClk { State.reset.clk with inc := 281474976710656 }).setTrig1
    { (State.reset.trig1.setStep 0 true) with len := 2, cur := cur }

/-- R139. -/
theorem test_nop : answerOf (after .nop State.reset) = some ⟨0, 0⟩ := by decide
/-- R142's example. -/
theorem test_first_error_kept :
    answerOf (after .engGetErrCode ((State.reset.reject .illegalOp).reject .reserved)) = some ⟨0, 1⟩ := by decide
/-- R137's example. -/
theorem test_transport_start :
    (after .transportStart State.reset).clk.phase = 0xFFFD44F30782 ∧
      (after .transportStart State.reset).trig1.cur = 7 ∧ (after .transportStart State.reset).eng.play = true := by
  decide
/-- R54's and R59's examples. -/
theorem test_clk_set_mult :
    (after (.clkSetMult 5) State.reset).clk.inc = 23456248059 ∧
      (after (.clkSetMult 100) State.reset).clk.inc = 187649984474 ∧
      (after (.clkSetMult (-3)) State.reset).clk.inc = 733007752 := by decide +kernel
/-- R57's example. -/
theorem test_clk_set_freq : (after (.clkSetFreq ⟨0x40800000⟩) State.reset).clk.inc = 23456248059 := by
  decide +kernel
/-- R56's corner cases: +inf and a subnormal. -/
theorem test_clk_init :
    (after (.clkInit ⟨0x7F800000⟩) State.reset).clk.inc = 281474976710656 ∧
      (after (.clkInit ⟨1⟩) State.reset).clk.inc = 1 := by decide +kernel
/-- R58's corner case, 100 bpm. -/
theorem test_clk_set_bpm :
    (after (.clkSetBpm ⟨0x42C80000⟩) State.reset).clk.freq = ⟨0x3FD55555⟩ ∧
      (after (.clkSetBpm ⟨0x42C80000⟩) State.reset).clk.inc = 9773436458 := by decide +kernel
/-- R63's example. -/
theorem test_clk_get_phase :
    answerOf (after (.clkGetPhase .lo) (after .clkSetPhaseToEnd State.reset)) = some ⟨0, 0x44F30782⟩ ∧
      answerOf (after (.clkGetPhase .hi) (after .clkSetPhaseToEnd State.reset)) = some ⟨0, 0xFFFD⟩ := by decide
/-- R64's example. -/
theorem test_clk_get_inc :
    answerOf (after (.clkGetInc .lo) State.reset) = some ⟨0, 0xBB0CF87E⟩ ∧
      answerOf (after (.clkGetInc .hi) State.reset) = some ⟨0, 2⟩ := by decide
/-- R71's example. -/
theorem test_pitch_set_note :
    (after (.pitchSetNote 3 61) (after (.qSetScale 1) State.reset)).pitch.noteAt 3 = 62 := by decide
/-- R78's example. -/
theorem test_pitch_get_transpose :
    answerOf (after .pitchGetTranspose (after (.pitchSetTranspose (-100)) State.reset)) =
      some ⟨0, 0xFFFFFFC0⟩ := by decide
/-- R84's example: the major scale from C. -/
theorem test_quantize :
    [60, 61, 62, 63, 64, 65, 66, 67, 68, 69, 70, 71, 72].map (quantize ({ key := 0, scale := 1 } : Quantizer)) =
      [60, 62, 62, 64, 64, 65, 67, 67, 69, 69, 71, 71, 72] := by decide
/-- R89's example. -/
theorem test_q_quantize :
    answerOf (after (.qQuantize 61) (after (.qSetScale 9) (after (.qSetKey 9) State.reset))) = some ⟨0, 62⟩ := by
  decide
/-- R90's first example. -/
theorem test_q_note_to_hz : answerOf (after (.qNoteToHz false 69) State.reset) = some ⟨0, 0x43DC0000⟩ := by
  decide +kernel
/-- R91's example. -/
theorem test_q_note_to_name : answerOf (after (.qNoteToName 70) State.reset) = some ⟨0, 0x00002341⟩ := by decide
/-- R97's example, note 60. -/
theorem test_osc_set_freq :
    noteToHz Config.reference 60 = ⟨0x4382D012⟩ ∧ (after (.oscSetFreq ⟨0x4382D012⟩) State.reset).osc.inc = ⟨0x3BB29A61⟩ := by
  decide +kernel
/-- R101's corner case. -/
theorem test_osc_set_amp : (after (.oscSetAmp ⟨0x40000000⟩) State.reset).osc.amp = ⟨0x3F800000⟩ := by
  decide +kernel
/-- R99's example: the first output after reset. -/
theorem test_osc_process : oscOut State.reset.osc = ⟨0x32000000⟩ := by decide +kernel
/-- R115's example. -/
theorem test_filt_add_freq :
    (after (.filtAddFreq ⟨0x43FA0000⟩) (after (.filtSetFreq ⟨0x447A0000⟩) State.reset)).filt.eff =
      ⟨0x44BB8000⟩ := by decide +kernel
/-- R122's example. -/
theorem test_filt_get_coef : answerOf (after (.filtGetCoef .b1) State.reset) = some ⟨0, 0x3FA3CB01⟩ := by decide
/-- R124: the first sample of the impulse response at 1000 Hz, direct and by table. -/
theorem test_filter_impulse :
    (coefDirect Config.reference ⟨0x447A0000⟩ ⟨0x3F3504F3⟩).a0 = ⟨0x3B8052C2⟩ ∧
      (coefTable Config.reference ⟨0x447A0000⟩ ⟨0x3F3504F3⟩).a0 = ⟨0x3B7DB341⟩ := by decide +kernel
/-- R128's example. -/
theorem test_env_set_decay : (after (.envSetDecay .env1 ⟨0x41A00000⟩) State.reset).env1.decay = ⟨0x41200000⟩ := by
  decide +kernel
/-- R129's example. -/
theorem test_env_trigger :
    (after (.envTrigger .env1) State.reset).env1.stage = .attack ∧
      answerOf (after (.envGetStage .env1) (after (.envTrigger .env1) State.reset)) = some ⟨0, 1⟩ := by
  decide +kernel
/-- R145: the first sample after a start triggers and takes the envelope out of silence. -/
theorem test_sample_step :
    (sampleStep started).eng.lastTrig = true ∧ (sampleStep started).clk.phase = 0 ∧
      (sampleStep started).env0.stage = .attack ∧ (sampleStep started).osc.freq = ⟨0x4382D012⟩ := by
  decide +kernel
/-- The placed word is the one the next step runs, from the state after reset. -/
theorem test_with_fetch_word :
    (match step (State.reset.withFetchWord 32 0x22000003) with
      | .next t => t.trig0.stepActive 3
      | _ => false) = true := by decide

/-! ### Witnesses: for each statement with hypotheses, a state and operands that meet them, at the ends of the
ranges its clauses name -/

theorem wit_DecodeOfEncodeIsTheCommand :
    (Instr.pitchSetNote 65535 (-2147483648)).wellFormed = true ∧ (Instr.clkSetMult 2147483647).wellFormed = true ∧
      (Instr.seqInit .pitch 4294967295).wellFormed = true := by decide

theorem wit_EncodeOfDecodeIsTheWord :
    decode ⟨0x2300FFFF, 0x80000000⟩ = .ok (.pitchSetNote 65535 (-2147483648)) ∧
      decode ⟨0x04000000, 0xFFFFFFFF⟩ = .ok .transportStart := by decide

theorem wit_DecodeFollowsTheOpcodeMap :
    rowOf ⟨0x07000000, 0⟩ = none ∧ rowOf ⟨0x20030001, 0⟩ = some ⟨0x20000000, 0xFF00FFFF, 3⟩ ∧
      rowOf ⟨0x20030000, 0⟩ = some ⟨0x20000000, 0xFF00FFFF, 3⟩ ∧
      rowOf ⟨0x20020000, 0⟩ = some ⟨0x20000000, 0xFF00FFFF, 3⟩ := by decide

theorem wit_StepRunsTheDecodedCommand :
    (State.reset.setInputs [.command ⟨0x04000000, 0⟩, .sample]).inputs = .command ⟨0x04000000, 0⟩ :: [.sample] ∧
      ((State.resetIn otherConfig).setInputs [.command ⟨0x04000000, 0⟩]).inputs = .command ⟨0x04000000, 0⟩ :: [] ∧
      decode ⟨0x04000000, 0⟩ = .ok .transportStart := by decide

theorem wit_StepRejectsAnUndecodableCommand :
    (State.reset.setInputs [.command ⟨0xFF000000, 0⟩]).inputs = .command ⟨0xFF000000, 0⟩ :: [] ∧
      decode ⟨0xFF000000, 0⟩ = .rejected .illegalOp ∧ decode ⟨0x00000001, 0⟩ = .rejected .reserved ∧
      decode ⟨0x06020000, 0⟩ = .rejected .badSel := by decide

theorem wit_StepAppliesSampleRequestsAndResets :
    (playing.setInputs [.sample]).inputs = .sample :: [] ∧ (playing.setInputs [.reset]).inputs = .reset :: [] ∧
      ((State.resetIn otherConfig).setInputs [.sample]).inputs = .sample :: [] ∧
      ((State.resetIn otherConfig).setInputs [.reset]).inputs = .reset :: [] := by
  decide

theorem wit_EachCommandIsAnsweredOnceAndRejectionIsPrecise :
    (playing.setInputs [.command ⟨0x05000000, 0⟩]).inputs = .command ⟨0x05000000, 0⟩ :: [] ∧
      step (playing.setInputs [.command ⟨0x05000000, 0⟩]) = .next (after .transportStop (playing.setInputs [])) ∧
      step (playing.setInputs [.command ⟨0x21000008, 0⟩]) = .next ((playing.setInputs []).rejectedWith 4) :=
  ⟨rfl, rfl, rfl⟩

theorem wit_QueriesWriteNothing :
    Instr.isQuery (.trigGetStep .trig0 7) = true ∧
      exec (.trigGetStep .trig0 7) State.reset = .next (State.reset.answeredWith 0) ∧
      exec (.trigGetStep .trig0 8) State.reset = .next (State.reset.rejectedWith 4) ∧
      Instr.isQuery (.qQuantize 128) = true ∧
      exec (.qQuantize 128) State.reset = .next (State.reset.rejectedWith 5) := ⟨rfl, rfl, rfl, rfl, rfl⟩

theorem wit_WriterTableIsKept :
    exec .transportStart State.reset = .next (after .transportStart State.reset) ∧
      exec (.envTrigger .env0) started = .next (after (.envTrigger .env0) started) := ⟨rfl, rfl⟩

theorem wit_ResetGivesEveryRegisterItsValue : (playing.setInputs [.reset, .sample]).inputs = .reset :: [.sample] :=
  rfl

theorem wit_ControlRegistersLegalAtReset : otherConfig.Legal ∧ 8 ≤ otherConfig.N_MAX :=
  ⟨otherConfig_legal, by decide⟩

/-- The state of `otherConfig` after reset with a sample request next, playing. -/
def otherPlaying : State otherConfig :=
  ((State.resetIn otherConfig).setEng { Engine.reset with play := true }).setInputs [.sample]

/-- The invariants hold in a state that is not the one after reset: playing, with a sample request next. -/
theorem wit_ControlRegistersStayLegal :
    (ControlLegal (started.setInputs [.sample]) ∧
      step (started.setInputs [.sample]) = .next (sampleStep (started.setInputs []))) ∧
    otherConfig.Legal ∧ 8 ≤ otherConfig.N_MAX ∧ ControlLegal otherPlaying ∧
      stepIn otherPlaying = .next (sampleStep (otherPlaying.setInputs [])) := by
  refine ⟨⟨?_, rfl⟩, otherConfig_legal, by decide, ?_, rfl⟩ <;> constructor <;> decide +kernel

theorem wit_DerivedRegistersStayInStep :
    (DerivedLegal (playing.setInputs [.sample]) ∧
      step (playing.setInputs [.sample]) = .next (sampleStep (playing.setInputs []))) ∧
    DerivedLegal otherPlaying ∧ stepIn otherPlaying = .next (sampleStep (otherPlaying.setInputs [])) := by
  refine ⟨⟨?_, rfl⟩, ?_, rfl⟩ <;> constructor <;> decide +kernel

/-- An envelope in mid-attack: timer 0.5 s of an attack of 1 s. -/
def midAttack : Envelope :=
  { stage := .attack, attack := ⟨0x3F800000⟩, decay := ⟨0x3F000000⟩, timer := ⟨0x3F000000⟩, out := ⟨0x3F000000⟩ }

/-- An envelope in mid-decay: timer 0.25 s of a decay of 0.5 s. -/
def midDecay : Envelope :=
  { stage := .decay, attack := ⟨0x3F800000⟩, decay := ⟨0x3F000000⟩, timer := ⟨0x3E800000⟩, out := ⟨0x3F000000⟩ }

/-- An envelope about to end: a decay of 0.5 s with the timer at 0.5 s less one unit in the last place. -/
def endDecay : Envelope :=
  { stage := .decay, attack := ⟨0x3F800000⟩, decay := ⟨0x3F000000⟩, timer := ⟨0x3EFFFFFF⟩, out := ⟨0x39000000⟩ }

theorem midAttack_legal : EnvelopeLegal midAttack := by constructor <;> decide +kernel
theorem midDecay_legal : EnvelopeLegal midDecay := by constructor <;> decide +kernel
theorem endDecay_legal : EnvelopeLegal endDecay := by constructor <;> decide +kernel

theorem wit_SignalRegistersStayInRange :
    SignalLegal ((playing.setEnv0 midAttack).setInputs [.sample]) ∧
      step ((playing.setEnv0 midAttack).setInputs [.sample]) =
        .next (sampleStep ((playing.setEnv0 midAttack).setInputs [])) := by
  refine ⟨⟨?_, ?_, ?_, ?_, ?_, ?_, ?_, ?_, ?_, ?_, midAttack_legal, ⟨?_, ?_, ?_, ?_, ?_, ?_⟩⟩, rfl⟩ <;>
    decide +kernel

/-- 1 is above 0, the least subnormal too: a pattern with a positive number of units is no zero. -/
theorem value_pos_of_units (a : F32) (h : 0 < a.units) : 0 < a.value := by
  rw [F32.value_eq]
  exact mul_pos (by exact_mod_cast h) (by positivity)

/-- The finite clauses at the ends of the range, with an exactly zero sum, difference and divisor; then the
infinities of both signs and a NaN. -/
theorem wit_ArithmeticIsRoundedOnceToNearestEven :
    F32.isFinite ⟨0x3F800000⟩ = true ∧ F32.isFinite ⟨0x00000001⟩ = true ∧ F32.isFinite ⟨0xFF7FFFFF⟩ = true ∧
      F32.value ⟨0x00000001⟩ ≠ 0 ∧ F32.isFinite ⟨0x80000000⟩ = true ∧ F32.value ⟨0x80000000⟩ = 0 ∧
      F32.value ⟨0x3F800000⟩ + F32.value ⟨0xBF800000⟩ = 0 ∧ F32.value ⟨0x80000000⟩ - F32.value ⟨0⟩ = 0 ∧
      F32.isInf ⟨0x7F800000⟩ = true ∧ F32.isInf ⟨0xFF800000⟩ = true ∧
      F32.isNegative ⟨0x7F800000⟩ ≠ F32.isNegative ⟨0xFF800000⟩ ∧ F32.isNaN ⟨0x7FC00000⟩ = true := by
  have z : F32.units ⟨0x80000000⟩ = 0 ∧ F32.units ⟨0⟩ = 0 := by decide
  have o : F32.units ⟨0xBF800000⟩ = -F32.units ⟨0x3F800000⟩ := by decide +kernel
  refine ⟨by decide, by decide, by decide, (value_pos_of_units _ (by decide)).ne', by decide, ?_, ?_, ?_,
    by decide, by decide, by decide, by decide⟩
  · rw [F32.value_eq, z.1, Int.cast_zero, zero_mul]
  · rw [F32.value_eq, F32.value_eq, o]
    push_cast
    ring
  · rw [F32.value_eq, F32.value_eq, z.1, z.2, sub_self]

theorem wit_ComparisonsFollowTheValues :
    F32.isFinite ⟨0x80000000⟩ = true ∧ F32.isFinite ⟨0x00000000⟩ = true ∧ F32.isNaN ⟨0x7FC00000⟩ = true := by
  decide

theorem clockFreq_two : IsClockFreq ⟨0x40000000⟩ :=
  .inr ⟨by decide, value_pos_of_units _ (by decide +kernel)⟩

theorem wit_ClockFrequencyCommandsStoreAndRecompute :
    IsClockFreq ⟨0x7F800000⟩ ∧ IsClockFreq ⟨0x40000000⟩ ∧ State.reset.clk.multIdx.toNat < 9 ∧
      F32.div ⟨0x42F00000⟩ (F32.ofInt 60) = ⟨0x40000000⟩ :=
  ⟨.inl rfl, clockFreq_two, by decide, by decide +kernel⟩

theorem wit_NonPositiveClockFrequencyIsRejected :
    F32.isNaN ⟨0x7FC00000⟩ = true ∧ F32.bits ⟨0xFF800000⟩ = 0xFF800000 ∧ F32.isFinite ⟨0x80000000⟩ = true ∧
      F32.value ⟨0x80000000⟩ ≤ 0 ∧ F32.div ⟨0x00000001⟩ (F32.ofInt 60) = ⟨0⟩ ∧ F32.value ⟨0⟩ ≤ 0 := by
  have h : ∀ a : F32, a.units = 0 → a.value ≤ 0 := by
    intro a ha
    rw [F32.value_eq, ha]
    simp
  exact ⟨by decide, by decide, by decide, h _ (by decide), by decide +kernel, h _ (by decide)⟩

theorem wit_ClockMultiplierIndexIsClamped : IsClockFreq State.reset.clk.freq := clockFreq_two

theorem wit_PhaseToEndLeavesOneIncrement :
    (1 ≤ State.reset.clk.inc.toNat ∧ State.reset.clk.inc.toNat ≤ 2 ^ 48) ∧
      1 ≤ (everySample 0).clk.inc.toNat ∧ (everySample 0).clk.inc.toNat ≤ 2 ^ 48 := by decide

theorem wit_PlayingSampleAdvancesTheClock :
    playing.eng.play = true ∧ playing.clk.inc.toNat ≤ 2 ^ 48 ∧ (everySample 0).eng.play = true ∧
      (everySample 0).clk.inc.toNat ≤ 2 ^ 48 := by decide

theorem wit_SampleRightAfterPhaseToEndTicks :
    (1 ≤ playing.clk.inc.toNat ∧ playing.clk.inc.toNat ≤ 2 ^ 48 ∧ playing.eng.play = true) ∧
      exec .clkSetPhaseToEnd playing = .next (after .clkSetPhaseToEnd playing) ∧
      exec .transportStart playing = .next (after .transportStart playing) :=
  ⟨by decide, rfl, rfl⟩

theorem wit_TicksAreSpacedByThePeriodOverTheIncrement :
    (started.eng.play = true ∧ 1 ≤ started.clk.inc.toNat ∧ started.clk.inc.toNat ≤ 2 ^ 48 ∧
      (sampleStep started).eng.lastTick = true) ∧
      (everySample 0).clk.inc.toNat = 2 ^ 48 ∧ (sampleStep (everySample 0)).eng.lastTick = true := by
  decide +kernel

theorem wit_SequencerInitClearsTheWholePattern :
    ((1 : Nat) ≤ 1 ∧ 1 ≤ 64) ∧ ((1 : Nat) ≤ 64 ∧ 64 ≤ 64) ∧ (0 : Nat) < 1 ∧ (64 : Nat) < 65 := by decide

/-- A pitch track of the greatest length. -/
def longest : State := after (.seqInit .pitch 64) (after (.seqInit .trig1 64) State.reset)

theorem wit_SetCurrentMovesThePlayhead :
    (7 < State.reset.trig0.len.toNat ∧ State.reset.trig0.len.toNat ≤ 64) ∧
      (63 < longest.trig1.len.toNat ∧ longest.trig1.len.toNat ≤ 64) ∧
      (63 < longest.pitch.len.toNat ∧ longest.pitch.len.toNat ≤ 64) ∧
      (State.reset.seqLen .trig0).toNat ≤ 8 ∧ (longest.seqLen .pitch).toNat ≤ 64 := by decide

theorem wit_ToggleFlipsOneStepAndTwiceRestores :
    (63 < (longest.trig .trig1).len.toNat ∧ (longest.trig .trig1).len.toNat ≤ 64) ∧
      (longest.trig .trig1).len.toNat ≤ 64 := by decide

theorem wit_SetNoteStoresTheQuantizedNote :
    (63 < longest.pitch.len.toNat ∧ longest.pitch.len.toNat ≤ 64 ∧ (0 : Int) ≤ 127 ∧ (127 : Int) ≤ 127 ∧
      longest.quant.scale.toNat < 10) ∧
      longest.pitch.len.toNat ≤ 64 ∧ (0 < longest.pitch.len.toNat ∧ ((-1 : Int) < 0 ∨ (127 : Int) < -1)) ∧
      (127 : Int) < 128 := by decide

theorem wit_SequencerQueriesReadTheirRegisters :
    7 < (State.reset.trig .trig0).len.toNat ∧ (State.reset.trig .trig0).len.toNat ≤ 8 ∧
      63 < longest.pitch.len.toNat ∧ longest.pitch.len.toNat ≤ 64 := by decide

theorem wit_PlayingSampleRunsTheSequencers :
    ControlLegal started ∧ started.eng.play = true ∧ (sampleStep started).eng.lastTrig = true := by
  refine ⟨?_, by decide +kernel, by decide +kernel⟩
  constructor <;> decide +kernel

/-- Ticks on every sample: the second sample's tick too. -/
theorem everySample_ticks (cur : BitVec 16) :
    (sampleStep (everySample cur)).eng.lastTick = true ∧
      (sampleStep^[0 + 2] (everySample cur)).eng.lastTick = true := by
  have hi : (everySample cur).clk.inc.toNat = 2 ^ 48 := rfl
  constructor
  · rw [sampleStep_lastTick _ rfl, clkTicks_iff, hi]
    exact Nat.le_add_left _ _
  · change (sampleStep (sampleStep (everySample cur))).eng.lastTick = true
    rw [sampleStep_lastTick _ (by rw [sampleStep_play]; rfl), sampleStep_clk _ rfl, clkTicks_iff]
    change 2 ^ 48 ≤ _ + (everySample cur).clk.inc.toNat
    rw [hi]
    exact Nat.le_add_left _ _

/-- Both clauses of R81 item 2, with no sample between the ticks. -/
theorem wit_CrossTrackResetAfterTwoTicks :
    (everySample 0).eng.play = true ∧ (everySample 0).trig0.len = 8 ∧ (everySample 0).trig1.len = 2 ∧
      (everySample 0).trig1.stepActive 0 = true ∧ (everySample 0).trig1.stepActive 1 = false ∧
      (sampleStep (everySample 0)).eng.lastTick = true ∧
      (sampleStep^[0 + 2] (everySample 0)).eng.lastTick = true ∧ (everySample 0).trig1.cur = 0 ∧
      (everySample 1).eng.play = true ∧ (everySample 1).trig0.len = 8 ∧ (everySample 1).trig1.len = 2 ∧
      (everySample 1).trig1.stepActive 0 = true ∧ (everySample 1).trig1.stepActive 1 = false ∧
      (sampleStep (everySample 1)).eng.lastTick = true ∧
      (sampleStep^[0 + 2] (everySample 1)).eng.lastTick = true ∧ (everySample 1).trig1.cur = 1 :=
  ⟨rfl, rfl, rfl, by decide, by decide, (everySample_ticks 0).1, (everySample_ticks 0).2, rfl,
    rfl, rfl, rfl, by decide, by decide, (everySample_ticks 1).1, (everySample_ticks 1).2, rfl⟩

theorem wit_QuantizeIsTheLeastNoteInScale : ({ key := 11, scale := 9 } : Quantizer).scale.toNat < 10 := by decide

theorem wit_QuantizeIsIdempotentAndChromaticIsIdentity :
    ({ key := 11, scale := 0 } : Quantizer).scale.toNat < 10 ∧ ({ key := 11, scale := 0 } : Quantizer).scale = 0 := by
  decide

theorem wit_QuantizerQueriesAnswerOrRejectTheNote :
    ((0 : Int) ≤ 0 ∧ (0 : Int) ≤ 127) ∧ ((0 : Int) ≤ 127 ∧ (127 : Int) ≤ 127) ∧ ((-1 : Int) < 0) ∧
      (127 : Int) < 128 := by decide

theorem wit_OscillatorSettersClampAndResync :
    F32.isNaN ⟨0x7F800000⟩ = false ∧ F32.isNaN ⟨0xFF800000⟩ = false ∧ F32.isNaN ⟨0x43DC0000⟩ = false := by decide

theorem wit_NaNOperandsAreRejected : F32.isNaN ⟨0x7F800001⟩ = true ∧ F32.isNaN ⟨0xFFFFFFFF⟩ = true := by decide

theorem wit_UnknownModeIsSilent :
    ∃ o : Oscillator, o = { State.reset.osc with mode := 3 } ∧ o.mode ≠ 0 ∧ o.mode ≠ 1 ∧ o.mode ≠ 2 ∧
      o.amp.isFinite = true := ⟨_, rfl, by decide, by decide, by decide, by decide⟩

/-- The oscillator after reset, in triangle mode and at the phase `p`. -/
def triangleAt (p : BitVec 32) : Oscillator := { State.reset.osc with mode := 1, phase := ⟨p⟩ }

theorem wit_TriangleIsSymmetric :
    ((F32.ofRat 1 2).le ⟨0x3F000000⟩ = true ∧ F32.lt ⟨0x3F000000⟩ (F32.ofInt 1) = true) ∧
      (F32.ofRat 1 2).le ⟨0x3F7FFFFF⟩ = true ∧ F32.lt ⟨0x3F7FFFFF⟩ (F32.ofInt 1) = true ∧
      (triangleAt 0x3F000000).mode = 1 ∧ (triangleAt 0x3F000000).amp = ⟨0x3F800000⟩ ∧
      (triangleAt 0).phase = ⟨0⟩ ∧ (triangleAt 0x3E800000).phase = ⟨0x3E800000⟩ ∧
      (triangleAt 0x3F000000).phase = ⟨0x3F000000⟩ ∧ (triangleAt 0x3F400000).phase = ⟨0x3F400000⟩ := by
  decide +kernel

theorem wit_FilterSettersClampAndRecompute :
    F32.isNaN ⟨0x41200000⟩ = false ∧ F32.isNaN ⟨0x7F800000⟩ = false ∧ F32.isNaN ⟨0x80000000⟩ = false := by decide

/-- The last point of each axis is found by the table (the ends of the two ranges). -/
theorem wit_TableMeetsDirectAtGridPoints :
    Config.reference.FILTER_REALIZATION = .direct ∧ otherConfig.FILTER_REALIZATION = .table ∧
      (511 : Nat) < 512 ∧ (31 : Nat) < 32 ∧ nearest (gridF Config.reference) 512 (gridF Config.reference 3) = 3 ∧ nearest (gridQ Config.reference) 32 (gridQ Config.reference 31) = 31 := by
  decide +kernel

theorem wit_EnvelopeTimesAreClamped : F32.isNaN ⟨0⟩ = false ∧ F32.isNaN ⟨0x41A00000⟩ = false := by decide

theorem wit_TriggerSeedsTheTimer :
    State.reset.env0.out.eqv (F32.ofInt 0) = true ∧ midAttack.out.eqv (F32.ofInt 0) = false ∧
      ((playing.setEnv0 midAttack).env .env0).out = ⟨0x3F000000⟩ ∧
      ((playing.setEnv0 midAttack).env .env0).attack = ⟨0x3F800000⟩ := by decide +kernel

theorem wit_EnvelopeIsMonotoneWithinAStage :
    EnvelopeLegal midAttack ∧ midAttack.stage = .attack ∧ midAttack.out = midAttack.timer.div midAttack.attack ∧
      EnvelopeLegal midDecay ∧ midDecay.stage = .decay ∧
      midDecay.out = (F32.ofInt 1).sub (midDecay.timer.div midDecay.decay) :=
  ⟨midAttack_legal, rfl, by decide +kernel, midDecay_legal, rfl, by decide +kernel⟩

theorem wit_EnvelopeOutputIsZeroExactlyInIdle :
    EnvelopeLegal endDecay ∧ endDecay.stage ≠ .idle ∧ (envProcess endDecay).stage = .idle :=
  ⟨endDecay_legal, by decide, by decide +kernel⟩

theorem wit_TransportCommandsStartAndStop : ControlLegal started := wit_PlayingSampleRunsTheSequencers.1

theorem wit_StoppedSampleIsSilentAndFreezes : State.reset.eng.play = false := rfl

/-- `s` with a voice of its own: an oscillator of mode `m`, increment `dt` and phase `p`, and two envelopes. -/
def voiced (s : State) (m p dt : BitVec 32) (e0 e1 : Envelope) : State :=
  ((s.setOsc { State.reset.osc with mode := m, inc := ⟨dt⟩, phase := ⟨p⟩ }).setEnv0 e0).setEnv1 e1

/-- Whatever its voice, the playing state after reset does not trigger at once. -/
theorem voiced_playing (m p dt : BitVec 32) (e0 e1 : Envelope) :
    (voiced playing m p dt e0 e1).eng.play = true ∧
      (sampleStep (voiced playing m p dt e0 e1)).eng.lastTrig = false := by
  refine ⟨rfl, ?_⟩
  rw [sampleStep_lastTrig _ rfl]
  have h : clkTicks (voiced playing m p dt e0 e1).clk = false := by
    change clkTicks State.reset.clk = false
    decide
  unfold sampleTriggers
  rw [h, Bool.false_and]

/-- Each mode, at both ends of the phase and in the three parts of BLEP; each stage, with and without its end. -/
theorem wit_PlayingSampleSynthesizes :
    ((voiced playing 0 0x3F7FFFFF 0x3F000000 midAttack midDecay).eng.play = true ∧
      (sampleStep (voiced playing 0 0x3F7FFFFF 0x3F000000 midAttack midDecay)).eng.lastTrig = false) ∧
    ((voiced playing 1 0 0x3C162FC9 endDecay .reset).eng.play = true ∧
      (sampleStep (voiced playing 1 0 0x3C162FC9 endDecay .reset)).eng.lastTrig = false) ∧
    ((voiced playing 2 0 0x3C162FC9 midAttack .reset).eng.play = true ∧
      (sampleStep (voiced playing 2 0 0x3C162FC9 midAttack .reset)).eng.lastTrig = false) ∧
    ((voiced playing 2 0x3F7ED3A0 0x3C162FC9 midDecay midAttack).eng.play = true ∧
      (sampleStep (voiced playing 2 0x3F7ED3A0 0x3C162FC9 midDecay midAttack)).eng.lastTrig = false) ∧
    ((voiced playing 2 0x3F000000 0x3C162FC9 midDecay endDecay).eng.play = true ∧
      (sampleStep (voiced playing 2 0x3F000000 0x3C162FC9 midDecay endDecay)).eng.lastTrig = false) ∧
    ((voiced playing 3 0 0 midAttack midAttack).eng.play = true ∧
      (sampleStep (voiced playing 3 0 0 midAttack midAttack)).eng.lastTrig = false) :=
  ⟨voiced_playing _ _ _ _ _, voiced_playing _ _ _ _ _, voiced_playing _ _ _ _ _, voiced_playing _ _ _ _ _,
    voiced_playing _ _ _ _ _, voiced_playing _ _ _ _ _⟩

/-- From silence, and with the envelopes still sounding. -/
theorem wit_TriggeringSampleRestartsTheVoice :
    (started.eng.play = true ∧ (sampleStep started).eng.lastTrig = true) ∧
      (voiced started 2 0 0x3C162FC9 midDecay midAttack).eng.play = true ∧
      (sampleStep (voiced started 2 0 0x3C162FC9 midDecay midAttack)).eng.lastTrig = true := by decide +kernel

theorem wit_FirstSampleAfterStartTriggers :
    ControlLegal (after (.trigToggle .trig0 0) State.reset) ∧
      (after (.trigToggle .trig0 0) State.reset).trig0.stepActive 0 = true ∧
      exec .transportStart (after (.trigToggle .trig0 0) State.reset) = .next started := by
  refine ⟨?_, by decide +kernel, rfl⟩
  constructor <;> decide +kernel

end Sys2Proof.Tests
end

section
/-! PROOFS. Binary32 arithmetic and comparisons (R5, R6, R7): a rounded magnitude is nearest because the exact one
lies between the midpoints beside it (`F32.le_roundMag_iff`); the sign then only reflects the line. -/

namespace Sys2Proof

/-! ### Comparisons -/

theorem F32.value_eq_iff (a b : F32) : a.value = b.value ↔ a.key = b.key := by
  rw [le_antisymm_iff, F32.value_le_iff, F32.value_le_iff, ← le_antisymm_iff]

theorem F32.compare_finite (a b : F32) (ha : a.isFinite = true) (hb : b.isFinite = true) :
    (a.lt b = true ↔ a.value < b.value) ∧ (a.le b = true ↔ a.value ≤ b.value) ∧
      (a.eqv b = true ↔ a.value = b.value) := by
  have hna := F32.isNaN_of_finite a ha
  have hnb := F32.isNaN_of_finite b hb
  refine ⟨?_, ?_, ?_⟩
  · simp [F32.lt_iff, F32.value_lt_iff, hna, hnb]
  · simp [F32.le_iff, F32.value_le_iff, hna, hnb]
  · simp [F32.eqv_iff, F32.value_eq_iff, hna, hnb]

theorem F32.compare_nan (a b : F32) (h : a.isNaN = true ∨ b.isNaN = true) :
    a.lt b = false ∧ a.le b = false ∧ a.eqv b = false := by
  simp only [← Bool.not_eq_true, F32.lt_iff, F32.le_iff, F32.eqv_iff]
  rcases h with h | h <;> simp [h]

/-- Settles O20: the order of the keys is the order of the values, and `clamp` is defined by `lt`. -/
theorem comparisonsFollowTheValues : Obligations.ComparisonsFollowTheValues :=
  ⟨fun a b => ⟨F32.compare_finite a b, F32.compare_nan a b⟩, fun _ _ _ => rfl⟩

/-! ### A rounded magnitude is the nearest one -/

/-- The exact magnitude is not below the midpoint under a pattern it rounds to or beyond. -/
theorem F32.midpoint_le (n d m : Nat) (hd : 0 < d) (h1 : 1 ≤ m) (h : m ≤ F32.roundMag n d) :
    ((F32.unitsOf (m - 1) : ℚ) + F32.unitsOf m ≤ 2 * (n / d)) ∧
      ((F32.unitsOf (m - 1) : ℚ) + F32.unitsOf m = 2 * (n / d) → m % 2 = 0) := by
  have hdq : (0 : ℚ) < d := by exact_mod_cast hd
  have hmid := (F32.le_roundMag_iff n d m hd h1 (h.trans (F32.roundMag_le n d))).1 h
  rw [mul_div_assoc', le_div_iff₀ hdq, eq_div_iff hdq.ne']
  norm_cast
  omega

/-- The exact magnitude is not above the midpoint under a pattern it rounds below. -/
theorem F32.le_midpoint (n d m : Nat) (hd : 0 < d) (h : F32.roundMag n d < m) (h2 : m ≤ F32.infMag) :
    (2 * (n / d) ≤ (F32.unitsOf (m - 1) : ℚ) + F32.unitsOf m) ∧
      (2 * (n / d) = (F32.unitsOf (m - 1) : ℚ) + F32.unitsOf m → m % 2 = 1) := by
  have hdq : (0 : ℚ) < d := by exact_mod_cast hd
  have hmid := (not_congr (F32.le_roundMag_iff n d m hd (by omega) h2)).1 (by omega)
  rw [mul_div_assoc', div_le_iff₀ hdq, div_eq_iff hdq.ne']
  norm_cast
  omega

/-- No other pattern is nearer to the exact magnitude than the rounded one, and where one is as near the rounded
one is even. -/
theorem F32.roundMag_nearest (n d q : Nat) (hd : 0 < d) (hfin : F32.roundMag n d < F32.infMag)
    (hq : q ≠ F32.roundMag n d) :
    |(F32.unitsOf (F32.roundMag n d) : ℚ) - n / d| ≤ |(F32.unitsOf q : ℚ) - n / d| ∧
      (|(F32.unitsOf q : ℚ) - n / d| = |(F32.unitsOf (F32.roundMag n d) : ℚ) - n / d| →
        F32.roundMag n d % 2 = 0) := by
  have hmono := F32.unitsOf_strictMono
  have habove := F32.le_midpoint n d (F32.roundMag n d + 1) hd (by omega) (by omega)
  have hbelow := F32.midpoint_le n d (F32.roundMag n d) hd
  generalize F32.roundMag n d = p at *
  generalize (n : ℚ) / d = x at *
  rcases Nat.lt_or_gt_of_ne hq with hlt | hgt
  · obtain ⟨hle, heven⟩ := hbelow (by omega) le_rfl
    have hqp : (F32.unitsOf q : ℚ) < F32.unitsOf p := by exact_mod_cast hmono hlt
    have hqm : (F32.unitsOf q : ℚ) ≤ F32.unitsOf (p - 1) := by exact_mod_cast hmono.monotone (by omega)
    rw [abs_of_nonpos (show (F32.unitsOf q : ℚ) - x ≤ 0 by linarith)]
    constructor
    · rw [abs_le]
      constructor <;> linarith
    · intro htie
      apply heven
      rcases abs_cases ((F32.unitsOf p : ℚ) - x) with ⟨h, -⟩ | ⟨h, -⟩ <;> linarith
  · obtain ⟨hle, hodd⟩ := habove
    rw [Nat.add_sub_cancel] at hle hodd
    have hpq : (F32.unitsOf p : ℚ) < F32.unitsOf q := by exact_mod_cast hmono hgt
    have hmq : (F32.unitsOf (p + 1) : ℚ) ≤ F32.unitsOf q := by exact_mod_cast hmono.monotone hgt
    rw [abs_of_nonneg (show 0 ≤ (F32.unitsOf q : ℚ) - x by linarith)]
    constructor
    · rw [abs_le]
      constructor <;> linarith
    · intro htie
      have : (p + 1) % 2 = 1 := by
        apply hodd
        rcases abs_cases ((F32.unitsOf p : ℚ) - x) with ⟨h, -⟩ | ⟨h, -⟩ <;> linarith
      omega

/-- Rounding overflows from the midpoint between the greatest finite magnitude and 2^277 units on. -/
theorem F32.roundMag_lt_infMag_iff (n d : Nat) (hd : 0 < d) :
    F32.roundMag n d < F32.infMag ↔ (n : ℚ) / d < (2 ^ 25 - 1) * 2 ^ 252 := by
  have hdq : (0 : ℚ) < d := by exact_mod_cast hd
  have hmid : F32.unitsOf (F32.infMag - 1) + F32.unitsOf F32.infMag = 2 * ((2 ^ 25 - 1) * 2 ^ 252) := by
    decide +kernel
  have heven : F32.infMag % 2 = 0 := rfl
  rw [← not_le, F32.le_roundMag_iff n d _ hd (by norm_num) le_rfl, hmid, div_lt_iff₀ hdq, Nat.mul_assoc]
  rw [show ((2 ^ 25 - 1) * 2 ^ 252 : ℚ) = (((2 ^ 25 - 1) * 2 ^ 252 : ℕ) : ℚ) by norm_num, ← Nat.cast_mul,
    Nat.cast_lt]
  omega

/-! ### The sign -/

/-- `x` or its negative. -/
def signed (negative : Bool) (x : ℚ) : ℚ := if negative then -x else x

@[simp] theorem signed_true (x : ℚ) : signed true x = -x := rfl
@[simp] theorem signed_false (x : ℚ) : signed false x = x := rfl
@[simp] theorem signed_zero (b : Bool) : signed b 0 = 0 := by cases b <;> simp
@[simp] theorem abs_signed (b : Bool) (x : ℚ) : |signed b x| = |x| := by cases b <;> simp

theorem signed_mul_right (b : Bool) (x c : ℚ) : signed b x * c = signed b (x * c) := by cases b <;> simp

theorem signed_mul_signed (a b : Bool) (x y : ℚ) : signed a x * signed b y = signed (a != b) (x * y) := by
  cases a <;> cases b <;> simp

theorem signed_div_signed (a b : Bool) (x y : ℚ) : signed a x / signed b y = signed (a != b) (x / y) := by
  cases a <;> cases b <;> simp [neg_div, div_neg]

@[simp] theorem signed_abs (z : Int) : signed (decide (z < 0)) |(z : ℚ)| = z := by
  rcases lt_or_ge z 0 with h | h
  · simp [h, abs_of_neg]
  · simp [h, abs_of_nonneg, not_lt.2 h]

theorem signed_lt_zero_iff (b : Bool) (x : ℚ) (hx : 0 ≤ x) : signed b x < 0 ↔ b = true ∧ x ≠ 0 := by
  cases b
  · simpa using hx
  · simpa using hx.lt_iff_ne'

/-- Two signed magnitudes are as far apart as the magnitudes, or as their sum. -/
theorem abs_signed_sub_signed (b c : Bool) (x y : ℚ) (hx : 0 ≤ x) (hy : 0 ≤ y) :
    |signed c y - signed b x| = if c = b then |y - x| else y + x := by
  have hsum : |y + x| = y + x := abs_of_nonneg (by linarith)
  cases b <;> cases c <;> simp only [signed_true, signed_false, if_true, reduceCtorEq, if_false]
  · rw [show -y - x = -(y + x) by ring, abs_neg, hsum]
  · rw [sub_neg_eq_add, hsum]
  · rw [show -y - -x = -(y - x) by ring, abs_neg]

theorem abs_sub_le_add (x y : ℚ) (hx : 0 ≤ x) (hy : 0 ≤ y) : |y - x| ≤ y + x := by
  rw [abs_le]
  constructor <;> linarith

/-- The sum of two magnitudes is their distance only where one of them is zero. -/
theorem eq_zero_of_add_eq_abs_sub (x y : ℚ) (h : y + x = |y - x|) : y = 0 ∨ x = 0 := by
  rcases abs_cases (y - x) with ⟨e, -⟩ | ⟨e, -⟩
  · exact .inr (by linarith)
  · exact .inl (by linarith)

theorem F32.value_eq_signed (a : F32) : a.value = signed a.sign (F32.unitsOf a.low) * 2 ^ (-149 : ℤ) := by
  rw [F32.value_eq]
  unfold F32.units F32.mag signed
  split <;> simp

theorem F32.value_eq_zero_iff (a : F32) : a.value = 0 ↔ a.low = 0 := by
  rw [F32.value_eq, mul_eq_zero_iff_right (by positivity), Int.cast_eq_zero, ← Int.natAbs_eq_zero,
    F32.natAbs_units, F32.mag_eq_zero_iff]

/-- The least significant bit tells an even pattern. -/
theorem F32.getLsbD_zero (a : F32) : a.bits.getLsbD 0 = decide (a.low % 2 = 1) := by
  rw [BitVec.getLsbD, Nat.testBit_zero]
  unfold F32.low
  congr 2
  omega

/-- `F32.roundMag_nearest` against the values of both signs: reflecting one away from the exact result brings it no
nearer. -/
theorem signed_roundMag_nearest (b c : Bool) (n d q : Nat) (hd : 0 < d) (hfin : F32.roundMag n d < F32.infMag) :
    |(F32.unitsOf (F32.roundMag n d) : ℚ) - n / d| ≤ |signed c (F32.unitsOf q) - signed b (n / d)| ∧
      (signed c (F32.unitsOf q) ≠ signed b (F32.unitsOf (F32.roundMag n d)) →
        |signed c (F32.unitsOf q) - signed b (n / d)| = |(F32.unitsOf (F32.roundMag n d) : ℚ) - n / d| →
        F32.roundMag n d % 2 = 0) := by
  have hx : (0 : ℚ) ≤ n / d := by positivity
  have hu : (0 : ℚ) ≤ F32.unitsOf q := by positivity
  have hreflect := abs_sub_le_add _ _ hx hu
  rw [abs_signed_sub_signed b c _ _ hx hu]
  by_cases hq : q = F32.roundMag n d
  · rw [hq] at hreflect ⊢
    by_cases hc : c = b
    · simp [hc]
    · rw [if_neg hc]
      refine ⟨hreflect, fun _ htie => ?_⟩
      rcases eq_zero_of_add_eq_abs_sub _ _ htie with h0 | h0
      · rw [Nat.cast_eq_zero, ← F32.unitsOf_zero, F32.unitsOf_strictMono.injective.eq_iff] at h0
        rw [h0]
      · have hn : n = 0 := by simpa [hd.ne'] using h0
        rw [hn, F32.roundMag_zero d hd]
  · obtain ⟨hle, htie⟩ := F32.roundMag_nearest n d q hd hfin hq
    by_cases hc : c = b
    · rw [if_pos hc]
      exact ⟨hle, fun _ => htie⟩
    · rw [if_neg hc]
      exact ⟨hle.trans hreflect, fun _ h => htie (le_antisymm (hreflect.trans h.le) hle)⟩

/-- ROUNDED ONCE (R7): the sign of the exact result on the rounded pattern of its magnitude, `n / d` units, is the
correctly rounded value. -/
theorem isRounded_pack (b : Bool) (n d : Nat) (hd : 0 < d) :
    IsRounded (signed b (n / d) * 2 ^ (-149 : ℤ)) (F32.pack b (F32.roundMag n d)) := by
  have hs : (0 : ℚ) < 2 ^ (-149 : ℤ) := by positivity
  have hx : (0 : ℚ) ≤ n / d := by positivity
  have hlt : F32.roundMag n d < 2 ^ 31 := (F32.roundMag_le n d).trans_lt F32.infMag_lt
  have hlow := F32.low_pack b _ hlt
  have hsign := F32.sign_pack b _ hlt
  have habs : |signed b (n / d) * (2 : ℚ) ^ (-149 : ℤ)| < overflowBound ↔ F32.roundMag n d < F32.infMag := by
    have hbound : overflowBound = (2 ^ 25 - 1) * 2 ^ 252 * 2 ^ (-149 : ℤ) := by
      unfold overflowBound
      norm_num
    rw [abs_mul, abs_signed, abs_of_nonneg hx, abs_of_pos hs, hbound, mul_lt_mul_iff_left₀ hs,
      F32.roundMag_lt_infMag_iff n d hd]
  have hdist : ∀ y : F32, |y.value - signed b (n / d) * 2 ^ (-149 : ℤ)| =
      |signed y.sign (F32.unitsOf y.low) - signed b (n / d)| * 2 ^ (-149 : ℤ) := by
    intro y
    rw [y.value_eq_signed, ← sub_mul, abs_mul, abs_of_pos hs]
  have hself : |signed b (F32.unitsOf (F32.roundMag n d)) - signed b (n / d)| =
      |(F32.unitsOf (F32.roundMag n d) : ℚ) - n / d| := by
    rw [abs_signed_sub_signed b b _ _ hx (by positivity), if_pos rfl]
  constructor
  · by_cases hfin : F32.roundMag n d < F32.infMag
    · rw [if_pos (habs.2 hfin)]
      refine ⟨(F32.isFinite_iff _).2 (by rwa [hlow]), fun y _ => ?_, fun y _ hne htie => ?_⟩
      · rw [hdist, hdist, hlow, hsign, hself, mul_le_mul_iff_left₀ hs]
        exact (signed_roundMag_nearest b y.sign n d y.low hd hfin).1
      · rw [hdist, hdist, hlow, hsign, hself, mul_left_inj' hs.ne'] at htie
        rw [y.value_eq_signed, F32.value_eq_signed, hlow, hsign, ne_eq, mul_left_inj' hs.ne'] at hne
        rw [F32.getLsbD_zero, hlow]
        simp [(signed_roundMag_nearest b y.sign n d y.low hd hfin).2 hne htie]
    · rw [if_neg (mt habs.1 hfin), F32.isInf_iff, hlow]
      exact le_antisymm (F32.roundMag_le n d) (not_lt.1 hfin)
  · intro hr
    have hne : (n : ℚ) / d ≠ 0 := by
      intro h0
      simp [h0] at hr
    rw [(F32.fields _).2.2, hsign, signed_mul_right, signed_lt_zero_iff b _ (by positivity)]
    simp [hne]

/-! ### Finite operands -/

theorem isRounded_ofRat (z : Int) (d : Nat) (hd : 0 < d) : IsRounded ((z : ℚ) / d) (F32.ofRat z d) := by
  have h := isRounded_pack (decide (z < 0)) (z.natAbs * 2 ^ 149) d hd
  have e : ((z.natAbs * 2 ^ 149 : ℕ) : ℚ) / d * 2 ^ (-149 : ℤ) = |(z : ℚ)| * (d : ℚ)⁻¹ := by
    push_cast
    rw [Nat.cast_natAbs, Int.cast_abs, zpow_neg, zpow_ofNat]
    field_simp
    norm_num
  rwa [signed_mul_right, e, ← signed_mul_right, signed_abs, ← div_eq_mul_inv] at h

/-- An exact sum of `z` units, rounded once: the form of both a sum and a difference. -/
theorem isRounded_units (z : Int) (b : Bool) :
    IsRounded ((z : ℚ) * 2 ^ (-149 : ℤ))
      (if z = 0 then F32.pack b 0 else F32.pack (decide (z < 0)) (F32.roundMag z.natAbs 1)) := by
  split
  · rename_i h
    simpa [h, F32.roundMag_zero] using isRounded_pack b 0 1 one_pos
  · simpa using isRounded_pack (decide (z < 0)) z.natAbs 1 one_pos

theorem F32.isRounded_add (a b : F32) (ha : a.isFinite = true) (hb : b.isFinite = true) :
    IsRounded (a.value + b.value) (a.add b) := by
  have h := isRounded_units (a.units + b.units) (a.sign && b.sign)
  rwa [Int.cast_add, add_mul, ← F32.value_eq, ← F32.value_eq, ← F32.add_finite a b ha hb] at h

theorem F32.isRounded_sub (a b : F32) (ha : a.isFinite = true) (hb : b.isFinite = true) :
    IsRounded (a.value - b.value) (a.sub b) := by
  have h := isRounded_units (a.units - b.units) (a.sign && !b.sign)
  rwa [Int.cast_sub, sub_mul, ← F32.value_eq, ← F32.value_eq, ← F32.sub_finite a b ha hb] at h

theorem F32.isRounded_mul (a b : F32) (ha : a.isFinite = true) (hb : b.isFinite = true) :
    IsRounded (a.value * b.value) (a.mul b) := by
  have h := isRounded_pack (a.sign != b.sign) (a.mag * b.mag) (2 ^ 149) (by positivity)
  have e : a.value * b.value =
      signed (a.sign != b.sign) (((a.mag * b.mag : ℕ) : ℚ) / (2 ^ 149 : ℕ)) * 2 ^ (-149 : ℤ) := by
    rw [a.value_eq_signed, b.value_eq_signed, mul_mul_mul_comm, signed_mul_signed, signed_mul_right,
      signed_mul_right]
    congr 1
    unfold F32.mag
    push_cast
    rw [zpow_neg, zpow_ofNat]
    field_simp
    norm_num
  rwa [F32.mul_finite a b ha hb, e]

theorem F32.isRounded_div (a b : F32) (ha : a.isFinite = true) (hb : b.isFinite = true) (h0 : b.value ≠ 0) :
    IsRounded (a.value / b.value) (a.div b) := by
  have hlow : b.low ≠ 0 := mt b.value_eq_zero_iff.2 h0
  have hmag : b.mag ≠ 0 := mt b.mag_eq_zero_iff.1 hlow
  have h := isRounded_pack (a.sign != b.sign) (a.mag * 2 ^ 149) b.mag (Nat.pos_of_ne_zero hmag)
  have e : a.value / b.value =
      signed (a.sign != b.sign) (((a.mag * 2 ^ 149 : ℕ) : ℚ) / b.mag) * 2 ^ (-149 : ℤ) := by
    rw [a.value_eq_signed, b.value_eq_signed, mul_div_mul_right _ _ (by positivity), signed_div_signed,
      signed_mul_right]
    congr 1
    unfold F32.mag
    push_cast
    rw [zpow_neg, zpow_ofNat]
    field_simp
    norm_num
  rwa [F32.div_finite a b ha hb hlow, e]

/-! ### Signs, zeros and infinities -/

theorem F32.isNegative_eq_sign (a : F32) : a.isNegative = a.sign := a.fields.2.2

theorem F32.zero_eq_pack (b : Bool) : F32.zero b = F32.pack b 0 := by cases b <;> rfl

theorem F32.infinity_eq_pack (b : Bool) : F32.infinity b = F32.pack b F32.infMag := by cases b <;> rfl

theorem F32.eq_infinity (a : F32) (h : a.isInf = true) : a = F32.infinity a.isNegative := by
  rw [F32.infinity_eq_pack, F32.isNegative_eq_sign, ← (F32.isInf_iff a).1 h, F32.pack_sign_low]

theorem F32.isNegative_pack_roundMag (b : Bool) (n d : Nat) : (F32.pack b (F32.roundMag n d)).isNegative = b := by
  rw [F32.isNegative_eq_sign, F32.sign_pack _ _ ((F32.roundMag_le n d).trans_lt F32.infMag_lt)]

theorem F32.isNaN_of_isInf (a : F32) (h : a.isInf = true) : a.isNaN = false := by
  rw [F32.isNaN_eq_false_iff, (F32.isInf_iff a).1 h]

theorem F32.low_ne_zero_of_isInf (a : F32) (h : a.isInf = true) : a.low ≠ 0 := by
  rw [(F32.isInf_iff a).1 h]
  norm_num

theorem F32.isInf_neg (a : F32) : a.neg.isInf = a.isInf := by
  unfold F32.isInf
  rw [a.units_neg.2.1]

theorem F32.neg_eq_infinity (a : F32) (h : a.isInf = true) : a.neg = F32.infinity (!a.isNegative) := by
  rw [a.neg.eq_infinity (a.isInf_neg.trans h), F32.isNegative_eq_sign, F32.isNegative_eq_sign, a.units_neg.2.2]

theorem F32.add_eq_signed_zero (a b : F32) (ha : a.isFinite = true) (hb : b.isFinite = true)
    (h : a.value + b.value = 0) : a.add b = F32.zero (a.isNegative && b.isNegative) := by
  have hz : a.units + b.units = 0 := by
    rwa [F32.value_eq, F32.value_eq, ← add_mul, mul_eq_zero_iff_right (by positivity), ← Int.cast_add,
      Int.cast_eq_zero] at h
  rw [F32.add_finite a b ha hb, if_pos hz, F32.zero_eq_pack, F32.isNegative_eq_sign, F32.isNegative_eq_sign]

theorem F32.sub_eq_signed_zero (a b : F32) (ha : a.isFinite = true) (hb : b.isFinite = true)
    (h : a.value - b.value = 0) : a.sub b = F32.zero (a.isNegative && !b.isNegative) := by
  have hz : a.units - b.units = 0 := by
    rwa [F32.value_eq, F32.value_eq, ← sub_mul, mul_eq_zero_iff_right (by positivity), ← Int.cast_sub,
      Int.cast_eq_zero] at h
  rw [F32.sub_finite a b ha hb, if_pos hz, F32.zero_eq_pack, F32.isNegative_eq_sign, F32.isNegative_eq_sign]

theorem F32.isNegative_mul (a b : F32) (ha : a.isFinite = true) (hb : b.isFinite = true) :
    (a.mul b).isNegative = (a.isNegative != b.isNegative) := by
  rw [F32.mul_finite a b ha hb, F32.isNegative_pack_roundMag, F32.isNegative_eq_sign, F32.isNegative_eq_sign]

theorem F32.isNegative_div (a b : F32) (ha : a.isFinite = true) (hb : b.isFinite = true) (h0 : b.value ≠ 0) :
    (a.div b).isNegative = (a.isNegative != b.isNegative) := by
  rw [F32.div_finite a b ha hb (mt b.value_eq_zero_iff.2 h0), F32.isNegative_pack_roundMag,
    F32.isNegative_eq_sign, F32.isNegative_eq_sign]

/-- Division of a finite value by a zero. -/
theorem F32.div_zero_finite (a b : F32) (ha : a.isFinite = true) (hb : b.isFinite = true) (h0 : b.value = 0) :
    (a.value ≠ 0 → a.div b = F32.infinity (a.isNegative != b.isNegative)) ∧
      (a.value = 0 → (a.div b).isNaN = true) := by
  have hb0 := b.value_eq_zero_iff.1 h0
  have hdiv : a.div b = if a.low = 0 then F32.nan .div a b else F32.pack (a.sign != b.sign) F32.infMag := by
    simp [F32.div, F32.isNaN_of_finite, F32.isInf_of_finite, ha, hb, hb0]
  rw [hdiv, ne_eq, F32.value_eq_zero_iff, F32.infinity_eq_pack, F32.isNegative_eq_sign, F32.isNegative_eq_sign]
  exact ⟨fun ha0 => if_neg ha0, fun ha0 => by rw [if_pos ha0, F32.isNaN_nan]⟩

/-- R7: the clauses of the obligation on two finite operands. -/
theorem F32.arithmetic_finite (a b : F32) (ha : a.isFinite = true) (hb : b.isFinite = true) :
    IsRounded (a.value + b.value) (a.add b) ∧ IsRounded (a.value - b.value) (a.sub b) ∧
      IsRounded (a.value * b.value) (a.mul b) ∧ (b.value ≠ 0 → IsRounded (a.value / b.value) (a.div b)) ∧
      (a.value + b.value = 0 → a.add b = F32.zero (a.isNegative && b.isNegative)) ∧
      (a.value - b.value = 0 → a.sub b = F32.zero (a.isNegative && !b.isNegative)) ∧
      (a.mul b).isNegative = (a.isNegative != b.isNegative) ∧
      (b.value ≠ 0 → (a.div b).isNegative = (a.isNegative != b.isNegative)) ∧
      (b.value = 0 → a.value ≠ 0 → a.div b = F32.infinity (a.isNegative != b.isNegative)) ∧
      (b.value = 0 → a.value = 0 → (a.div b).isNaN = true) :=
  ⟨a.isRounded_add b ha hb, a.isRounded_sub b ha hb, a.isRounded_mul b ha hb, a.isRounded_div b ha hb,
    a.add_eq_signed_zero b ha hb, a.sub_eq_signed_zero b ha hb, a.isNegative_mul b ha hb, a.isNegative_div b ha hb,
    fun h0 => (a.div_zero_finite b ha hb h0).1, fun h0 => (a.div_zero_finite b ha hb h0).2⟩

/-! ### Infinite operands -/

theorem F32.add_inf_finite (a b : F32) (ha : a.isInf = true) (hb : b.isFinite = true) :
    a.add b = a ∧ b.add a = a := by
  have hna := a.isNaN_of_isInf ha
  have hnb := b.isNaN_of_finite hb
  have hib := b.isInf_of_finite hb
  constructor <;> simp [F32.add, F32.addNonNaN, ha, hna, hnb, hib]

theorem F32.sub_inf_finite (a b : F32) (ha : a.isInf = true) (hb : b.isFinite = true) :
    a.sub b = a ∧ b.sub a = F32.infinity (!a.isNegative) := by
  have hna := a.isNaN_of_isInf ha
  have hnb := b.isNaN_of_finite hb
  have hib := b.isInf_of_finite hb
  rw [← a.neg_eq_infinity ha]
  constructor <;> simp [F32.sub, F32.addNonNaN, F32.isInf_neg, ha, hna, hnb, hib]

/-- An infinity times a value that is no NaN, in either order. -/
theorem F32.mul_inf (a b : F32) (ha : a.isInf = true) (hb : b.isNaN = false) :
    (b.low ≠ 0 → a.mul b = F32.infinity (a.isNegative != b.isNegative) ∧
      b.mul a = F32.infinity (a.isNegative != b.isNegative)) ∧
    (b.low = 0 → (a.mul b).isNaN = true ∧ (b.mul a).isNaN = true) := by
  have hna := a.isNaN_of_isInf ha
  have hla := a.low_ne_zero_of_isInf ha
  simp only [F32.infinity_eq_pack, F32.isNegative_eq_sign]
  constructor
  · intro h0
    have hcomm : (b.sign != a.sign) = (a.sign != b.sign) := bne_comm
    constructor <;> simp [F32.mul, ha, hna, hb, hla, h0, hcomm]
  · intro h0
    constructor <;> simp [F32.mul, ha, hna, hb, h0, F32.isNaN_nan]

theorem F32.div_inf_finite (a b : F32) (ha : a.isInf = true) (hb : b.isFinite = true) :
    a.div b = F32.infinity (a.isNegative != b.isNegative) ∧ b.div a = F32.zero (a.isNegative != b.isNegative) := by
  have hna := a.isNaN_of_isInf ha
  have hnb := b.isNaN_of_finite hb
  have hib := b.isInf_of_finite hb
  have hcomm : (b.sign != a.sign) = (a.sign != b.sign) := bne_comm
  rw [F32.infinity_eq_pack, F32.zero_eq_pack, F32.isNegative_eq_sign, F32.isNegative_eq_sign]
  constructor <;> simp [F32.div, ha, hna, hnb, hib, hcomm]

theorem F32.add_inf_inf (a b : F32) (ha : a.isInf = true) (hb : b.isInf = true) :
    (a.isNegative = b.isNegative → a.add b = a) ∧ (a.isNegative ≠ b.isNegative → (a.add b).isNaN = true) := by
  have hna := a.isNaN_of_isInf ha
  have hnb := b.isNaN_of_isInf hb
  rw [F32.isNegative_eq_sign, F32.isNegative_eq_sign]
  constructor <;> intro h <;> simp [F32.add, F32.addNonNaN, ha, hb, hna, hnb, h, F32.isNaN_nan]

theorem F32.sub_inf_inf (a b : F32) (ha : a.isInf = true) (hb : b.isInf = true) :
    (a.isNegative = b.isNegative → (a.sub b).isNaN = true) ∧ (a.isNegative ≠ b.isNegative → a.sub b = a) := by
  have hna := a.isNaN_of_isInf ha
  have hnb := b.isNaN_of_isInf hb
  have hs := b.units_neg.2.2
  rw [F32.isNegative_eq_sign, F32.isNegative_eq_sign]
  constructor <;> intro h <;>
    simp [F32.sub, F32.addNonNaN, F32.isInf_neg, ha, hb, hna, hnb, hs, h, F32.isNaN_nan]

theorem F32.div_inf_inf (a b : F32) (ha : a.isInf = true) (hb : b.isInf = true) : (a.div b).isNaN = true := by
  simp [F32.div, ha, hb, a.isNaN_of_isInf ha, b.isNaN_of_isInf hb, F32.isNaN_nan]

/-- R7: the clauses of the obligation on an infinity and a finite operand. -/
theorem F32.arithmetic_inf_finite (a b : F32) (ha : a.isInf = true) (hb : b.isFinite = true) :
    a.add b = a ∧ b.add a = a ∧ a.sub b = a ∧ b.sub a = F32.infinity (!a.isNegative) ∧
      (b.value ≠ 0 → a.mul b = F32.infinity (a.isNegative != b.isNegative) ∧
        b.mul a = F32.infinity (a.isNegative != b.isNegative)) ∧
      (b.value = 0 → (a.mul b).isNaN = true ∧ (b.mul a).isNaN = true) ∧
      a.div b = F32.infinity (a.isNegative != b.isNegative) ∧
      b.div a = F32.zero (a.isNegative != b.isNegative) := by
  obtain ⟨hadd, hadd'⟩ := a.add_inf_finite b ha hb
  obtain ⟨hsub, hsub'⟩ := a.sub_inf_finite b ha hb
  obtain ⟨hmul, hmul0⟩ := a.mul_inf b ha (b.isNaN_of_finite hb)
  rw [← b.value_eq_zero_iff] at hmul0
  rw [ne_eq, ← b.value_eq_zero_iff] at hmul
  exact ⟨hadd, hadd', hsub, hsub', hmul, hmul0, a.div_inf_finite b ha hb⟩

/-- R7: the clauses of the obligation on two infinities. -/
theorem F32.arithmetic_inf_inf (a b : F32) (ha : a.isInf = true) (hb : b.isInf = true) :
    (a.isNegative = b.isNegative → a.add b = a ∧ (a.sub b).isNaN = true) ∧
      (a.isNegative ≠ b.isNegative → (a.add b).isNaN = true ∧ a.sub b = a) ∧
      a.mul b = F32.infinity (a.isNegative != b.isNegative) ∧ (a.div b).isNaN = true := by
  obtain ⟨hadd, hadd'⟩ := a.add_inf_inf b ha hb
  obtain ⟨hsub, hsub'⟩ := a.sub_inf_inf b ha hb
  have hmul := ((a.mul_inf b ha (b.isNaN_of_isInf hb)).1 (b.low_ne_zero_of_isInf hb)).1
  exact ⟨fun h => ⟨hadd h, hsub h⟩, fun h => ⟨hadd' h, hsub' h⟩, hmul, a.div_inf_inf b ha hb⟩

/-- Settles O19, by the classes of the operands; the finite ones rest on `isRounded_pack`. -/
theorem arithmeticIsRoundedOnceToNearestEven : Obligations.ArithmeticIsRoundedOnceToNearestEven :=
  ⟨isRounded_ofRat, fun _ => rfl, fun a b =>
    ⟨a.arithmetic_finite b, a.arithmetic_inf_finite b, a.arithmetic_inf_inf b,
      fun h => ⟨a.add_nan b h, a.sub_nan b h, a.mul_nan b h, a.div_nan b h⟩⟩⟩

end Sys2Proof
end

section
/-! PROOFS. What one event can do to the registers, said once for every configuration (R4): a command answers, is
rejected, or rewrites one component by one of its few writes; a sample step runs each component or leaves it. The
invariants and the writer table of R26 follow from this, component by component. -/

namespace Sys2Proof.Machine

open Sys2Proof

variable {cfg : Config}

/-! ### The writes of each component -/

/-- The clock `c'` is `c` after a command that writes clock registers (R56 to R60). -/
inductive ClockWrite (c : Clock cfg) : Clock cfg → Prop
  | init (f : F32) (hf : badClockFreq f = false) :
      ClockWrite c (clkIncCalc { c with freq := f, multIdx := BitVec.ofNat 8 cfg.MULT_UNITY, phase := 0 })
  | setFreq (f : F32) (hf : badClockFreq f = false) : ClockWrite c (clkIncCalc { c with freq := f })
  | setMult (k : Int) : ClockWrite c
      (clkIncCalc { c with multIdx := BitVec.ofInt 8 (clampInt k 0 ((cfg.MULT_TABLE.length : Int) - 1)) })
  | phaseToEnd : ClockWrite c (clkPhaseToEnd c)

/-- The trigger sequencer `k'` is `k` after a command that writes its registers or its pattern (R68 to R70). -/
inductive TrigWrite (k : TrigTrack cfg) : TrigTrack cfg → Prop
  | init (n : Nat) (hn : 1 ≤ n ∧ n ≤ cfg.N_MAX) : TrigWrite k (initTrig n k)
  | setCurrent (i : Nat) (hi : i < k.len.toNat) : TrigWrite k { k with cur := BitVec.ofNat 16 i }
  | setStep (i : Nat) (b : Bool) : TrigWrite k (k.setStep i b)

/-- The pitch sequencer `k'` is `k` after a command that writes its registers or its notes, with the quantizer `q`
(R68, R69, R71, R72). -/
inductive PitchWrite (q : Quantizer cfg) (k : PitchTrack cfg) : PitchTrack cfg → Prop
  | init (n : Nat) (hn : 1 ≤ n ∧ n ≤ cfg.N_MAX) : PitchWrite q k (initPitch q n k)
  | setCurrent (i : Nat) (hi : i < k.len.toNat) : PitchWrite q k { k with cur := BitVec.ofNat 16 i }
  | setNote (i : Nat) (n : Int) (hi : i < k.len.toNat) (hn : badNote cfg n = false) :
      PitchWrite q k (k.setNote i (quantize q n))
  | setTranspose (d : Int) : PitchWrite q k
      { k with transpose := BitVec.ofInt 8 (clampInt d cfg.TRANSPOSE_MIN cfg.TRANSPOSE_MAX) }

/-- The quantizer `q'` is `q` after a command that writes its registers (R87, R88). -/
inductive QuantWrite (q : Quantizer cfg) : Quantizer cfg → Prop
  | setKey (k : Int) : QuantWrite q { q with key := BitVec.ofInt 4 (clampInt k 0 11) }
  | setScale (k : Int) : QuantWrite q
      { q with scale := BitVec.ofInt 8 (clampInt k 0 ((cfg.NUM_SCALES : Int) - 1)) }

/-- The oscillator `o'` is `o` after a command that writes its registers (R100 to R102). -/
inductive OscWrite (o : Oscillator cfg) : Oscillator cfg → Prop
  | setFreq (f : F32) (hf : f.isNaN = false) : OscWrite o (oscSetFreqInt f o)
  | setAmp (a : F32) (ha : a.isNaN = false) : OscWrite o { o with amp := a.clamp (F32.ofInt 0) (F32.ofInt 1) }
  | setMode (m : Word) : OscWrite o (oscResync { o with mode := m })

/-- The filter `u'` is `u` after a command that writes its registers (R113 to R116). -/
inductive FiltWrite (u : FilterUnit cfg) : FilterUnit cfg → Prop
  | setFreq (f : F32) (hf : f.isNaN = false) : FiltWrite u (filtRecompute { u with freq := clampFiltFreq f })
  | setQ (q : F32) (hq : q.isNaN = false) : FiltWrite u (filtRecompute { u with q := q.clamp minQ (F32.ofInt 5) })
  | addFreq (d : F32) (hd : d.isNaN = false) : FiltWrite u (filtRecompute { u with mod := clampOffset d })
  | setDepth (d : F32) (hd : d.isNaN = false) : FiltWrite u { u with depth := clampOffset d }

/-- The envelope `e'` is `e` after a command that writes its registers (R127 to R129). -/
inductive EnvWrite (e : Envelope cfg) : Envelope cfg → Prop
  | setAttack (t : F32) (ht : t.isNaN = false) : EnvWrite e { e with attack := clampTime t }
  | setDecay (t : F32) (ht : t.isNaN = false) : EnvWrite e { e with decay := clampTime t }
  | trigger : EnvWrite e (envTriggerInt e)

/-! ### The effect of a command -/

/-- The registers that TRANSPORT_START writes (R137). -/
def startTransport (s : State cfg) : State cfg :=
  { s with
    trig0 := { s.trig0 with cur := lastStep s.trig0.len }
    trig1 := { s.trig1 with cur := lastStep s.trig1.len }
    pitch := { s.pitch with cur := lastStep s.pitch.len }
    clk := clkPhaseToEnd s.clk
    eng := { s.eng with play := true } }

/-- From `s` a command that decodes leaves the given state (R48): each command is of one of these kinds. -/
inductive CommandEffect (s : State cfg) : State cfg → Prop
  | answered (v : Word) : CommandEffect s (s.answer v)
  | rejected (e : ErrCode) : CommandEffect s (s.reject e)
  | clock {c : Clock cfg} (h : ClockWrite s.clk c) : CommandEffect s (s.setClk c).accept
  | trig (u : TrigSel) {k : TrigTrack cfg} (h : TrigWrite (s.trig u) k) : CommandEffect s (s.setTrig u k).accept
  | pitch {k : PitchTrack cfg} (h : PitchWrite s.quant s.pitch k) : CommandEffect s (s.setPitch k).accept
  | quant {q : Quantizer cfg} (h : QuantWrite s.quant q) : CommandEffect s (s.setQuant q).accept
  | osc {o : Oscillator cfg} (h : OscWrite s.osc o) : CommandEffect s (s.setOsc o).accept
  | filt {f : FilterUnit cfg} (h : FiltWrite s.filt f) : CommandEffect s (s.setFilt f).accept
  | env (u : EnvSel) {e : Envelope cfg} (h : EnvWrite (s.env u) e) : CommandEffect s (s.setEnv u e).accept
  | start : CommandEffect s (startTransport s).accept
  | stop : CommandEffect s (s.setEng { s.eng with play := false }).accept

/-- `r` is a next state that a command can leave from `s`. -/
def Effects (s : State cfg) (r : Result cfg) : Prop := ∃ t, r = .next t ∧ CommandEffect s t

theorem CommandEffect.effects {s t : State cfg} (h : CommandEffect s t) : Effects s (.next t) := ⟨t, rfl, h⟩

theorem effects_answer (s : State cfg) (v : Word) : Effects s (.next (s.answer v)) :=
  (CommandEffect.answered v).effects

/-- A command with one check (R47 step 4): rejected where the check fails, and else as its own meaning is. -/
theorem effects_ite (s : State cfg) (bad : Prop) [Decidable bad] (e : ErrCode) (r : Result cfg)
    (h : ¬bad → Effects s r) : Effects s (if bad then .next (s.reject e) else r) := by
  by_cases hb : bad
  · rw [if_pos hb]
    exact (CommandEffect.rejected e).effects
  · rw [if_neg hb]
    exact h hb

theorem effects_clkSet (f : F32) (s : State cfg) : Effects s (execClkSetFreq f s) :=
  effects_ite s _ _ _ fun hf => (CommandEffect.clock (.setFreq f (Bool.eq_false_of_not_eq_true hf))).effects

theorem effects_seqInit (q : SeqSel) (n : Nat) (s : State cfg) : Effects s (execSeqInit q n s) :=
  effects_ite s _ _ _ fun hn => by
    have hn : 1 ≤ n ∧ n ≤ cfg.N_MAX := by omega
    cases q with
    | trig0 => exact (CommandEffect.trig .trig0 (.init n hn)).effects
    | trig1 => exact (CommandEffect.trig .trig1 (.init n hn)).effects
    | pitch => exact (CommandEffect.pitch (.init n hn)).effects

theorem effects_seqSetCurrent (q : SeqSel) (i : Nat) (s : State cfg) : Effects s (execSeqSetCurrent q i s) :=
  effects_ite s _ _ _ fun hi => by
    have hi := (badIndex_eq_false_iff i _).1 (Bool.eq_false_of_not_eq_true hi)
    cases q with
    | trig0 => exact (CommandEffect.trig .trig0 (.setCurrent i hi)).effects
    | trig1 => exact (CommandEffect.trig .trig1 (.setCurrent i hi)).effects
    | pitch => exact (CommandEffect.pitch (.setCurrent i hi)).effects

theorem effects_pitchSetNote (i : Nat) (n : Int) (s : State cfg) : Effects s (execPitchSetNote i n s) :=
  effects_ite s _ _ _ fun hi => effects_ite s _ _ _ fun hn =>
    (CommandEffect.pitch (.setNote i n ((badIndex_eq_false_iff i _).1 (Bool.eq_false_of_not_eq_true hi))
      (Bool.eq_false_of_not_eq_true hn))).effects

/-- WHAT A COMMAND CAN DO: every instruction answers a next state, of one of the kinds of `CommandEffect`. -/
theorem execIn_effects (i : Instr) (s : State cfg) : Effects s (execIn i s) := by
  have ok : ∀ {b : Bool}, ¬b = true → b = false := Bool.eq_false_of_not_eq_true
  cases i with
  | nop | engGetId | engGetStatus | engGetErrCode | engGetOut | clkGetFreq | clkGetMult | clkGetPhase | clkGetInc
  | seqGetCurrent | seqGetLength | trigGetCurrentActive | pitchGetTranspose | pitchGetCurrentFreq
  | pitchGetCurrentName | qGetKey | qGetScale | oscGetFreq | oscGetAmp | oscGetMode | oscGetPhase
  | oscGetSineState | filtGetFreq | filtGetQ | filtGetMod | filtGetEffFreq | filtGetEnvDepth | filtGetCoef
  | filtGetState | envGetAttack | envGetDecay | envGetOutput | envGetStage | envGetTimer =>
    exact effects_answer s _
  | trigGetStep | pitchGetNote | qQuantize | qNoteToHz | qNoteToName =>
    exact effects_ite s _ _ _ fun _ => effects_answer s _
  | transportStart => exact CommandEffect.start.effects
  | transportStop => exact CommandEffect.stop.effects
  | clkInit f => exact effects_ite s _ _ _ fun hf => (CommandEffect.clock (.init f (ok hf))).effects
  | clkSetFreq f => exact effects_clkSet f s
  | clkSetBpm bpm => exact effects_clkSet (bpm.div (F32.ofInt 60)) s
  | clkSetMult k => exact (CommandEffect.clock (.setMult k)).effects
  | clkSetPhaseToEnd => exact (CommandEffect.clock .phaseToEnd).effects
  | seqInit q n => exact effects_seqInit q n s
  | seqSetCurrent q idx => exact effects_seqSetCurrent q idx s
  | trigToggle u idx => exact effects_ite s _ _ _ fun _ => (CommandEffect.trig u (.setStep idx _)).effects
  | pitchSetNote idx n => exact effects_pitchSetNote idx n s
  | pitchSetTranspose d => exact (CommandEffect.pitch (.setTranspose d)).effects
  | qSetKey k => exact (CommandEffect.quant (.setKey k)).effects
  | qSetScale k => exact (CommandEffect.quant (.setScale k)).effects
  | oscSetFreq f => exact effects_ite s _ _ _ fun hf => (CommandEffect.osc (.setFreq f (ok hf))).effects
  | oscSetAmp a => exact effects_ite s _ _ _ fun ha => (CommandEffect.osc (.setAmp a (ok ha))).effects
  | oscSetMode m => exact (CommandEffect.osc (.setMode m)).effects
  | filtSetFreq f => exact effects_ite s _ _ _ fun hf => (CommandEffect.filt (.setFreq f (ok hf))).effects
  | filtSetQ q => exact effects_ite s _ _ _ fun hq => (CommandEffect.filt (.setQ q (ok hq))).effects
  | filtAddFreq d => exact effects_ite s _ _ _ fun hd => (CommandEffect.filt (.addFreq d (ok hd))).effects
  | filtSetEnvDepth d => exact effects_ite s _ _ _ fun hd => (CommandEffect.filt (.setDepth d (ok hd))).effects
  | envSetAttack u t => exact effects_ite s _ _ _ fun ht => (CommandEffect.env u (.setAttack t (ok ht))).effects
  | envSetDecay u t => exact effects_ite s _ _ _ fun ht => (CommandEffect.env u (.setDecay t (ok ht))).effects
  | envTrigger u => exact (CommandEffect.env u .trigger).effects

theorem applyCommand_effects (c : Command) (s : State cfg) : Effects s (applyCommand execIn c s) := by
  unfold applyCommand
  split
  · exact (CommandEffect.rejected _).effects
  · exact execIn_effects _ s

theorem Effects.of_next {s t : State cfg} {r : Result cfg} (h : Effects s r) (hr : r = .next t) :
    CommandEffect s t := by
  obtain ⟨t', ht, h⟩ := h
  cases ht.symm.trans hr
  exact h

/-! ### The effect of a sample step -/

/-- Where a sample step can leave a playhead: in its place, one step on, or on step 0 (R136, R66, R81). -/
inductive PlayheadMove (len : BitVec 17) (cur : BitVec 16) : BitVec 16 → Prop
  | stay : PlayheadMove len cur cur
  | advance : PlayheadMove len cur (nextStep cur len)
  | restart : PlayheadMove len cur 0

/-- The trigger sequencer `k'` is `k` after a sample step (R136): only its playhead moves. -/
structure TrigSample (k k' : TrigTrack cfg) : Prop where
  len : k'.len = k.len
  active : k'.active = k.active
  cur : PlayheadMove k.len k.cur k'.cur

/-- The pitch sequencer `k'` is `k` after a sample step (R136): only its playhead moves. -/
structure PitchSample (k k' : PitchTrack cfg) : Prop where
  len : k'.len = k.len
  transpose : k'.transpose = k.transpose
  note : k'.note = k.note
  cur : PlayheadMove k.len k.cur k'.cur

/-- The oscillator `o'` is `o` after a sample step (R136): as it was, run, or tuned to the pitch track and run. -/
inductive OscSample (o : Oscillator cfg) : Oscillator cfg → Prop
  | still : OscSample o o
  | run : OscSample o (oscProcess o)
  | retune (k : PitchTrack cfg) : OscSample o (oscProcess (oscSetFreqInt (pitchFreq k) o))

/-- The filter `u'` is `u` after a sample step (R136) whose filter envelope puts out `out`. -/
inductive FiltSample (out : F32) (u : FilterUnit cfg) : FilterUnit cfg → Prop
  | still : FiltSample out u u
  | run (x0 : F32) : FiltSample out u (filtProcess x0 (filtRecompute { u with mod := out.mul u.depth }))

/-- The envelope `e'` is `e` after a sample step (R136): as it was, run, or triggered and run. -/
inductive EnvSample (e : Envelope cfg) : Envelope cfg → Prop
  | still : EnvSample e e
  | run : EnvSample e (envProcess e)
  | restart : EnvSample e (envProcess (envTriggerInt e))

/-- From `s` a sample step leaves `t` (R136), whether it is playing or not. -/
structure SampleEffect (s t : State cfg) : Prop where
  clk : t.clk = s.clk ∨ t.clk = clkProcess s.clk
  trig0 : TrigSample s.trig0 t.trig0
  trig1 : TrigSample s.trig1 t.trig1
  pitch : PitchSample s.pitch t.pitch
  quant : t.quant = s.quant
  osc : OscSample s.osc t.osc
  filt : FiltSample t.env1.out s.filt t.filt
  env0 : EnvSample s.env0 t.env0
  env1 : EnvSample s.env1 t.env1
  eng : t.eng.play = s.eng.play ∧ t.eng.err = s.eng.err ∧ t.eng.errCode = s.eng.errCode

theorem SampleEffect.stopped (s : State cfg) : SampleEffect s (stoppedSample s) where
  clk := .inl rfl
  trig0 := ⟨rfl, rfl, .stay⟩
  trig1 := ⟨rfl, rfl, .stay⟩
  pitch := ⟨rfl, rfl, rfl, .stay⟩
  quant := rfl
  osc := .still
  filt := .still
  env0 := .still
  env1 := .still
  eng := ⟨rfl, rfl, rfl⟩

/-! The playing sample step, component by component. -/

theorem trigSample_playingSample_trig0 (s : State cfg) : TrigSample s.trig0 (playingSample s).trig0 := by
  rw [playingSample_trig0, trackStage_trig0]
  split
  · split
    · exact ⟨rfl, rfl, .restart⟩
    · exact ⟨rfl, rfl, .advance⟩
  · exact ⟨rfl, rfl, .stay⟩

theorem trigSample_playingSample_trig1 (s : State cfg) : TrigSample s.trig1 (playingSample s).trig1 := by
  rw [playingSample_trig1, trackStage_trig1]
  split
  · exact ⟨rfl, rfl, .advance⟩
  · exact ⟨rfl, rfl, .stay⟩

theorem pitchSample_playingSample (s : State cfg) : PitchSample s.pitch (playingSample s).pitch := by
  rw [playingSample_pitch, trackStage_pitch]
  split
  · split
    · exact ⟨rfl, rfl, rfl, .restart⟩
    · exact ⟨rfl, rfl, rfl, .advance⟩
  · exact ⟨rfl, rfl, rfl, .stay⟩

theorem oscSample_playingSample (s : State cfg) : OscSample s.osc (playingSample s).osc := by
  rw [playingSample_osc]
  split
  · exact .retune _
  · exact .run

theorem envSample_envProcess (b : Bool) (e : Envelope cfg) :
    EnvSample e (envProcess (if b then envTriggerInt e else e)) := by
  split
  · exact .restart
  · exact .run

theorem SampleEffect.playing (s : State cfg) : SampleEffect s (playingSample s) where
  clk := .inr ((playingSample_clk s).trans (trackStage_clk s))
  trig0 := trigSample_playingSample_trig0 s
  trig1 := trigSample_playingSample_trig1 s
  pitch := pitchSample_playingSample s
  quant := playingSample_quant s
  osc := oscSample_playingSample s
  filt := playingSample_filt s ▸ .run _
  env0 := playingSample_env0 s ▸ envSample_envProcess _ _
  env1 := playingSample_env1 s ▸ envSample_envProcess _ _
  eng := by simp [playingSample_eng]

theorem SampleEffect.deliver {s t : State cfg} (h : SampleEffect s t) (p : StereoPair) :
    SampleEffect s (t.deliver p) := { h with }

/-- WHAT A SAMPLE STEP CAN DO. -/
theorem sampleStep_effect (s : State cfg) : SampleEffect s (sampleStep s) := by
  cases h : s.eng.play
  · rw [sampleStep_of_stop s h]
    exact (SampleEffect.stopped s).deliver _
  · rw [sampleStep_of_play s h]
    exact (SampleEffect.playing s).deliver _

/-! ### Invariants of a step -/

theorem stepIn_of_nil (s : State cfg) (hi : s.inputs = []) : stepIn s = .next s := by
  unfold stepIn applyNext
  rw [hi]

theorem stepIn_of_cons (s : State cfg) (e : Event) (rest : List Event) (hi : s.inputs = e :: rest) :
    stepIn s = applyEvent execIn e (s.setInputs rest) := by
  unfold stepIn applyNext
  rw [hi]

/-- AN INVARIANT OF EVERY STEP: what no write to the channel of events touches, what every command keeps, every sample
step keeps, and what holds after a reset event, every step keeps (R36, R37). -/
theorem stepIn_keeps (P : State cfg → Prop) (inputs : ∀ s es, P s → P (s.setInputs es))
    (command : ∀ s t, CommandEffect s t → P s → P t) (sample : ∀ s t, SampleEffect s t → P s → P t)
    (reset : ∀ s : State cfg, P s.resetEvent) (s t : State cfg) (hs : P s) (h : stepIn s = .next t) : P t := by
  cases hi : s.inputs with
  | nil =>
    rw [stepIn_of_nil s hi] at h
    cases h
    exact hs
  | cons e rest =>
    rw [stepIn_of_cons s e rest hi] at h
    have hs := inputs s rest hs
    cases e with
    | command c => exact command _ t ((applyCommand_effects c _).of_next h) hs
    | sample =>
      cases h
      exact sample _ _ (sampleStep_effect _) hs
    | reset =>
      cases h
      exact reset _

end Sys2Proof.Machine
end

section
/-! PROOFS. The writer table (R26) and the derived registers (R12, R19, R20, R96): each write of a component, and each
sample, keeps what the table or the rule says of it. -/

namespace Sys2Proof.Machine

open Sys2Proof

variable {cfg : Config}

/-! ### What a command leaves to the audio agent (R26) -/

theorem OscWrite.phase_eq {o o' : Oscillator cfg} (h : OscWrite o o') : o'.phase = o.phase := by
  cases h <;> rfl

theorem FiltWrite.history_eq {u u' : FilterUnit cfg} (h : FiltWrite u u') :
    u'.x1 = u.x1 ∧ u'.x2 = u.x2 ∧ u'.y1 = u.y1 ∧ u'.y2 = u.y2 := by
  cases h <;> exact ⟨rfl, rfl, rfl, rfl⟩

theorem EnvWrite.out_eq {e e' : Envelope cfg} (h : EnvWrite e e') : e'.out = e.out := by
  cases h <;> rfl

/-- The registers that only the audio agent writes (R26) hold in `t` what they hold in `s`. -/
structure AudioRegistersKept (s t : State cfg) : Prop where
  phase : t.osc.phase = s.osc.phase
  history : t.filt.x1 = s.filt.x1 ∧ t.filt.x2 = s.filt.x2 ∧ t.filt.y1 = s.filt.y1 ∧ t.filt.y2 = s.filt.y2
  env0 : t.env0.out = s.env0.out
  env1 : t.env1.out = s.env1.out
  eng : t.eng.lastTick = s.eng.lastTick ∧ t.eng.lastTrig = s.eng.lastTrig ∧ t.eng.outL = s.eng.outL ∧
    t.eng.outR = s.eng.outR

theorem AudioRegistersKept.refl (s : State cfg) : AudioRegistersKept s s :=
  ⟨rfl, ⟨rfl, rfl, rfl, rfl⟩, rfl, rfl, ⟨rfl, rfl, rfl, rfl⟩⟩

/-- A command keeps the registers that only the audio agent writes (R26). -/
theorem CommandEffect.audioRegistersKept {s t : State cfg} (h : CommandEffect s t) : AudioRegistersKept s t := by
  have keep := AudioRegistersKept.refl s
  cases h with
  | answered v => exact { keep with }
  | rejected e => exact { keep with eng := by simp }
  | clock h => exact { keep with }
  | trig u h => cases u <;> exact { keep with }
  | pitch h => exact { keep with }
  | quant h => exact { keep with }
  | osc h => exact { keep with phase := h.phase_eq }
  | filt h => exact { keep with history := h.history_eq }
  | env u h =>
    cases u with
    | env0 => exact { keep with env0 := h.out_eq }
    | env1 => exact { keep with env1 := h.out_eq }
  | start => exact { keep with }
  | stop => exact { keep with }

/-! ### What a sample step leaves to the host (R26) -/

theorem OscSample.amp_mode_eq {o o' : Oscillator cfg} (h : OscSample o o') : o'.amp = o.amp ∧ o'.mode = o.mode := by
  cases h <;> simp

theorem FiltSample.settings_eq {out : F32} {u u' : FilterUnit cfg} (h : FiltSample out u u') :
    u'.freq = u.freq ∧ u'.q = u.q ∧ u'.depth = u.depth := by
  cases h <;> exact ⟨rfl, rfl, rfl⟩

theorem EnvSample.times_eq {e e' : Envelope cfg} (h : EnvSample e e') :
    e'.attack = e.attack ∧ e'.decay = e.decay := by
  cases h <;> simp

/-- The clock registers that only the host writes. -/
theorem SampleEffect.clk_settings_eq {s t : State cfg} (h : SampleEffect s t) :
    t.clk.freq = s.clk.freq ∧ t.clk.multIdx = s.clk.multIdx ∧ t.clk.inc = s.clk.inc := by
  rcases h.clk with hc | hc <;> rw [hc] <;> exact ⟨rfl, rfl, rfl⟩

/-- Settles O10: by what a sample step does to each component, and by what a command does to it. -/
theorem writerTableIsKept : Obligations.WriterTableIsKept := by
  constructor
  · intro s
    have h := sampleStep_effect s
    obtain ⟨hfreq, hmult, hinc⟩ := h.clk_settings_eq
    obtain ⟨hamp, hmode⟩ := h.osc.amp_mode_eq
    obtain ⟨hcut, hq, hdepth⟩ := h.filt.settings_eq
    obtain ⟨hattack0, hdecay0⟩ := h.env0.times_eq
    obtain ⟨hattack1, hdecay1⟩ := h.env1.times_eq
    obtain ⟨hplay, herr, hcode⟩ := h.eng
    exact ⟨hfreq, hmult, hinc, h.trig0.len, h.trig1.len, h.pitch.len, h.pitch.transpose, h.trig0.active,
      h.trig1.active, h.pitch.note, h.quant, hamp, hmode, hcut, hq, hdepth, hattack0, hdecay0, hattack1, hdecay1,
      hplay, herr, hcode⟩
  · intro i s t h
    have h := ((execIn_effects i s).of_next ((execIn_reference i s).trans h)).audioRegistersKept
    obtain ⟨hx1, hx2, hy1, hy2⟩ := h.history
    exact ⟨h.phase, hx1, hx2, hy1, hy2, h.env0, h.env1, h.eng⟩

/-! ### The derived registers -/

/-- CLK_INC follows its rule (R54). -/
theorem ClockWrite.inc_eq {c c' : Clock cfg} (h : ClockWrite c c') (hc : c.inc = clkIncOf cfg c.freq c.multIdx) :
    c'.inc = clkIncOf cfg c'.freq c'.multIdx := by
  cases h with
  | phaseToEnd => exact hc
  | init | setFreq | setMult => rfl

/-- OSC_INC and OSC_COEFF follow their rules (R19, R96). -/
abbrev OscDerived (o : Oscillator cfg) : Prop :=
  o.inc = o.freq.div (srF32 cfg) ∧ o.coeff = (F32.ofInt 2).mul (cfg.COS (F32.mul ⟨0x40C90FDB⟩ o.inc))

theorem oscDerived_oscSetFreqInt (f : F32) (o : Oscillator cfg) : OscDerived (oscSetFreqInt f o) := ⟨rfl, rfl⟩

theorem oscDerived_oscProcess {o : Oscillator cfg} (ho : OscDerived o) : OscDerived (oscProcess o) := by
  simpa [OscDerived] using ho

theorem OscWrite.derived {o o' : Oscillator cfg} (h : OscWrite o o') (ho : OscDerived o) : OscDerived o' := by
  cases h with
  | setFreq f => exact oscDerived_oscSetFreqInt f o
  | setAmp => exact ho
  | setMode => exact ⟨ho.1, rfl⟩

theorem OscSample.derived {o o' : Oscillator cfg} (h : OscSample o o') (ho : OscDerived o) : OscDerived o' := by
  cases h with
  | still => exact ho
  | run => exact oscDerived_oscProcess ho
  | retune k => exact oscDerived_oscProcess (oscDerived_oscSetFreqInt _ _)

/-- FILT_EFF and the coefficients follow their rules (R20, R111). -/
abbrev FiltDerived (u : FilterUnit cfg) : Prop :=
  u.eff = (u.freq.add u.mod).clamp (F32.ofInt 20) (F32.ofInt 20000) ∧ u.coef = coefOf cfg u.eff u.q

theorem filtDerived_filtRecompute (u : FilterUnit cfg) : FiltDerived (filtRecompute u) := ⟨rfl, rfl⟩

theorem FiltWrite.derived {u u' : FilterUnit cfg} (h : FiltWrite u u') (hu : FiltDerived u) : FiltDerived u' := by
  cases h with
  | setDepth => exact hu
  | setFreq | setQ | addFreq => exact filtDerived_filtRecompute _

theorem FiltSample.derived {out : F32} {u u' : FilterUnit cfg} (h : FiltSample out u u') (hu : FiltDerived u) :
    FiltDerived u' := by
  cases h with
  | still => exact hu
  | run x0 => exact filtDerived_filtRecompute _

theorem CommandEffect.derivedLegal {s t : State cfg} (h : CommandEffect s t) (hs : DerivedLegal s) :
    DerivedLegal t := by
  cases h with
  | answered v => exact { hs with }
  | rejected e => exact { hs with }
  | clock h => exact { hs with clkInc := h.inc_eq hs.clkInc }
  | trig u h => cases u <;> exact { hs with }
  | pitch h => exact { hs with }
  | quant h => exact { hs with }
  | osc h =>
    obtain ⟨hinc, hcoeff⟩ := h.derived ⟨hs.oscInc, hs.oscCoeff⟩
    exact { hs with oscInc := hinc, oscCoeff := hcoeff }
  | filt h =>
    obtain ⟨heff, hcoef⟩ := h.derived ⟨hs.filtEff, hs.coef⟩
    exact { hs with filtEff := heff, coef := hcoef }
  | env u h => cases u <;> exact { hs with }
  | start => exact { hs with }
  | stop => exact { hs with }

theorem SampleEffect.derivedLegal {s t : State cfg} (h : SampleEffect s t) (hs : DerivedLegal s) :
    DerivedLegal t := by
  obtain ⟨hfreq, hmult, hinc⟩ := h.clk_settings_eq
  obtain ⟨hoscInc, hcoeff⟩ := h.osc.derived ⟨hs.oscInc, hs.oscCoeff⟩
  obtain ⟨heff, hcoef⟩ := h.filt.derived ⟨hs.filtEff, hs.coef⟩
  exact ⟨by rw [hinc, hfreq, hmult, hs.clkInc], hoscInc, hcoeff, heff, hcoef⟩

/-- Every recomputation at reset is the rule's own (R160). -/
theorem derivedLegal_resetEvent (s : State cfg) : DerivedLegal s.resetEvent := ⟨rfl, rfl, rfl, rfl, rfl⟩

theorem derivedLegal_stepIn (s t : State cfg) (hs : DerivedLegal s) (h : stepIn s = .next t) : DerivedLegal t :=
  stepIn_keeps DerivedLegal (fun _ _ hs => { hs with }) (fun _ _ h => h.derivedLegal) (fun _ _ h => h.derivedLegal)
    derivedLegal_resetEvent s t hs h

/-- Settles O16: each write of a source register recomputes what is derived from it. -/
theorem derivedRegistersStayInStep : Obligations.DerivedRegistersStayInStep :=
  ⟨fun s t hs h => derivedLegal_stepIn s t hs ((stepIn_reference s).trans h), fun _ => derivedLegal_stepIn⟩

end Sys2Proof.Machine
end

section
/-! PROOFS. The integer registers (R12, R14, R15, R16, R23, R81 item 1) stay legal: an operand is clamped or checked
before it is stored, and a playhead stays below its length. -/

namespace Sys2Proof.Machine

open Sys2Proof

variable {cfg : Config}

/-! ### Clamped operands in their registers -/

theorem clampInt_range (v lo hi : Int) (h : lo ≤ hi) : lo ≤ clampInt v lo hi ∧ clampInt v lo hi ≤ hi := by
  unfold clampInt
  split
  · omega
  · split <;> omega

/-- An unsigned register holds the operand clamped to `0 .. hi` (R16, R59). -/
theorem toNat_ofInt_clampInt (w : Nat) (k hi : Int) (h0 : 0 ≤ hi) (h : hi < 2 ^ w) :
    ((BitVec.ofInt w (clampInt k 0 hi)).toNat : Int) ≤ hi := by
  obtain ⟨hlo, hhi⟩ := clampInt_range k 0 hi h0
  have hmod : clampInt k 0 hi % ((2 ^ w : Nat) : Int) = clampInt k 0 hi :=
    Int.emod_eq_of_lt hlo (by push_cast; omega)
  rw [BitVec.toNat_ofInt, hmod]
  omega

/-! ### The clock -/

/-- The index of 1/1 that CLK_INIT and reset write is one of the table's (R56, R160). -/
theorem unity_lt (hc : cfg.Legal) : (BitVec.ofNat 8 cfg.MULT_UNITY).toNat < cfg.MULT_TABLE.length := by
  have hlt := (List.getElem?_eq_some_iff.1 hc.unity).1
  rw [BitVec.toNat_ofNat]
  exact (Nat.mod_le _ _).trans_lt hlt

theorem ClockWrite.multIdx_lt (hc : cfg.Legal) {c c' : Clock cfg} (h : ClockWrite c c')
    (hm : c.multIdx.toNat < cfg.MULT_TABLE.length) : c'.multIdx.toNat < cfg.MULT_TABLE.length := by
  cases h with
  | init => exact unity_lt hc
  | setMult k =>
    have hlen := hc.multipliers.1
    have := toNat_ofInt_clampInt 8 k ((cfg.MULT_TABLE.length : Int) - 1) (by omega) (by omega)
    change (BitVec.ofInt 8 (clampInt k 0 ((cfg.MULT_TABLE.length : Int) - 1))).toNat < _
    omega
  | setFreq | phaseToEnd => exact hm

theorem ClockWrite.inc_range {c c' : Clock cfg} (h : ClockWrite c c')
    (hi : 1 ≤ c.inc.toNat ∧ c.inc.toNat ≤ cfg.PERIOD) : 1 ≤ c'.inc.toNat ∧ c'.inc.toNat ≤ cfg.PERIOD := by
  cases h with
  | phaseToEnd => exact hi
  | init | setFreq | setMult => exact clkIncOf_range cfg _ _

/-! ### The playheads -/

/-- A step index below a legal length fits the playhead. -/
theorem trackLegal_setCurrent {len : BitVec 17} {cur : BitVec 16} (h : TrackLegal cfg len cur)
    (i : Nat) (hi : i < len.toNat) : TrackLegal cfg len (BitVec.ofNat 16 i) := by
  obtain ⟨hpos, hmax, -⟩ := h
  refine ⟨hpos, hmax, ?_⟩
  rw [BitVec.toNat_ofNat]
  exact (Nat.mod_le _ _).trans_lt hi

theorem trackLegal_init (hc : cfg.Legal) (n : Nat) (hn : 1 ≤ n ∧ n ≤ cfg.N_MAX) :
    TrackLegal cfg (BitVec.ofNat 17 n) 0 := by
  have hmax := hc.steps.2
  have hlen : (BitVec.ofNat 17 n).toNat = n := by
    rw [BitVec.toNat_ofNat]
    omega
  rw [TrackLegal, hlen]
  exact ⟨hn.1, hn.2, hn.1⟩

theorem trackLegal_lastStep {len : BitVec 17} {cur : BitVec 16} (h : TrackLegal cfg len cur) :
    TrackLegal cfg len (lastStep len) :=
  trackLegal_setCurrent h _ (by have := h.1; omega)

theorem PlayheadMove.trackLegal {len : BitVec 17} {cur cur' : BitVec 16}
    (h : PlayheadMove len cur cur') (hl : TrackLegal cfg len cur) : TrackLegal cfg len cur' := by
  cases h with
  | stay => exact hl
  | advance => exact trackLegal_setCurrent hl _ (Nat.mod_lt _ hl.1)
  | restart => exact trackLegal_setCurrent hl 0 hl.1

theorem TrigWrite.trackLegal (hc : cfg.Legal) {k k' : TrigTrack cfg} (h : TrigWrite k k')
    (hk : TrackLegal cfg k.len k.cur) : TrackLegal cfg k'.len k'.cur := by
  cases h with
  | init n hn => exact trackLegal_init hc n hn
  | setCurrent i hi => exact trackLegal_setCurrent hk i hi
  | setStep i b => exact hk

theorem TrigSample.trackLegal {k k' : TrigTrack cfg} (h : TrigSample k k')
    (hk : TrackLegal cfg k.len k.cur) : TrackLegal cfg k'.len k'.cur := by
  rw [h.len]
  exact h.cur.trackLegal hk

theorem PitchWrite.trackLegal (hc : cfg.Legal) {q : Quantizer cfg} {k k' : PitchTrack cfg} (h : PitchWrite q k k')
    (hk : TrackLegal cfg k.len k.cur) : TrackLegal cfg k'.len k'.cur := by
  cases h with
  | init n hn => exact trackLegal_init hc n hn
  | setCurrent i hi => exact trackLegal_setCurrent hk i hi
  | setNote | setTranspose => exact hk

theorem PitchSample.trackLegal {k k' : PitchTrack cfg} (h : PitchSample k k')
    (hk : TrackLegal cfg k.len k.cur) : TrackLegal cfg k'.len k'.cur := by
  rw [h.len]
  exact h.cur.trackLegal hk

/-! ### The notes and the transpose -/

/-- The legal transpose (R14). -/
abbrev TransposeLegal (k : PitchTrack cfg) : Prop :=
  cfg.TRANSPOSE_MIN ≤ k.transpose.toInt ∧ k.transpose.toInt ≤ cfg.TRANSPOSE_MAX

theorem PitchWrite.transposeLegal (hc : cfg.Legal) {q : Quantizer cfg} {k k' : PitchTrack cfg}
    (h : PitchWrite q k k') (hk : TransposeLegal k) : TransposeLegal k' := by
  cases h with
  | setTranspose d =>
    obtain ⟨hmin, hmin0, hmax0, hmax⟩ := hc.transpose
    have hd := clampInt_range d cfg.TRANSPOSE_MIN cfg.TRANSPOSE_MAX (by omega)
    have hreg : (BitVec.ofInt 8 (clampInt d cfg.TRANSPOSE_MIN cfg.TRANSPOSE_MAX)).toInt =
        clampInt d cfg.TRANSPOSE_MIN cfg.TRANSPOSE_MAX :=
      BitVec.toInt_ofInt_eq_self (by omega) (by omega) (by omega)
    rw [TransposeLegal, hreg]
    exact hd
  | init | setCurrent | setNote => exact hk

/-- The legal notes (R15): a host's note, or one that QUANTIZE has moved up. -/
abbrev NotesLegal (k : PitchTrack cfg) : Prop :=
  ∀ i, i < cfg.N_MAX → cfg.NOTE_MIN ≤ k.noteAt i ∧ k.noteAt i ≤ cfg.NOTE_MAX + 11

/-- A quantized host note is legal (R84). -/
theorem quantize_legal (hc : cfg.Legal) (q : Quantizer cfg) (hq : q.scale.toNat < cfg.NUM_SCALES) (n : Int)
    (h1 : cfg.NOTE_MIN ≤ n) (h2 : n ≤ cfg.NOTE_MAX) :
    cfg.NOTE_MIN ≤ quantize q n ∧ quantize q n ≤ cfg.NOTE_MAX + 11 := by
  have := quantize_le hc q n hq
  omega

theorem badNote_eq_false (n : Int) (h : badNote cfg n = false) : cfg.NOTE_MIN ≤ n ∧ n ≤ cfg.NOTE_MAX := by
  simpa [badNote] using h

/-- A pattern filled with one note that fits its elements. -/
theorem notesLegal_of_replicate (hc : cfg.Legal) (k : PitchTrack cfg) (n : Int)
    (hk : k.note = Vector.replicate cfg.N_MAX (BitVec.ofInt 16 n))
    (hn : cfg.NOTE_MIN ≤ n ∧ n ≤ cfg.NOTE_MAX + 11) : NotesLegal k := by
  obtain ⟨hmin, hmax⟩ := hc.notes
  intro i hi
  have hat : k.noteAt i = n := by
    unfold PitchTrack.noteAt
    rw [hk, Vector.getElem?_eq_getElem hi, Vector.getElem_replicate, Option.getD_some]
    exact BitVec.toInt_ofInt_eq_self (by omega) (by omega) (by omega)
  rw [hat]
  exact hn

/-- What a pitch sequencer holds after SEQ_INIT and after reset: the quantized default note everywhere (R68, R160). -/
theorem notesLegal_default (hc : cfg.Legal) (q : Quantizer cfg) (hq : q.scale.toNat < cfg.NUM_SCALES)
    (k : PitchTrack cfg)
    (hk : k.note = Vector.replicate cfg.N_MAX (BitVec.ofInt 16 (quantize q cfg.DEFAULT_NOTE))) : NotesLegal k :=
  notesLegal_of_replicate hc k _ hk (quantize_legal hc q hq _ hc.defaultNote.1 hc.defaultNote.2)

theorem PitchWrite.notesLegal (hc : cfg.Legal) {q : Quantizer cfg} (hq : q.scale.toNat < cfg.NUM_SCALES)
    {k k' : PitchTrack cfg} (h : PitchWrite q k k') (hk : NotesLegal k) (hl : TrackLegal cfg k.len k.cur) :
    NotesLegal k' := by
  obtain ⟨-, hsteps, -⟩ := hl
  cases h with
  | init n hn => exact notesLegal_default hc q hq _ rfl
  | setNote i n hi hn =>
    obtain ⟨hmin, hmax⟩ := hc.notes
    obtain ⟨hn1, hn2⟩ := badNote_eq_false n hn
    have hquant := quantize_legal hc q hq n hn1 hn2
    intro j hj
    rw [PitchTrack.noteAt_setNote k i j _ (hi.trans_le hsteps) (by omega) (by omega)]
    split
    · exact hquant
    · exact hk j hj
  | setCurrent | setTranspose => exact hk

theorem PitchSample.notesLegal {k k' : PitchTrack cfg} (h : PitchSample k k') (hk : NotesLegal k) :
    NotesLegal k' := by
  unfold NotesLegal PitchTrack.noteAt
  rw [h.note]
  exact hk

/-! ### The quantizer and the error latch -/

theorem QuantWrite.legal (hc : cfg.Legal) {q q' : Quantizer cfg} (h : QuantWrite q q') (hkey : q.key.toNat ≤ 11)
    (hscale : q.scale.toNat < cfg.NUM_SCALES) : q'.key.toNat ≤ 11 ∧ q'.scale.toNat < cfg.NUM_SCALES := by
  obtain ⟨-, h1, h2⟩ := hc.scales
  cases h with
  | setKey k =>
    have := toNat_ofInt_clampInt 4 k 11 (by omega) (by omega)
    exact ⟨by exact_mod_cast this, hscale⟩
  | setScale k =>
    have := toNat_ofInt_clampInt 8 k ((cfg.NUM_SCALES : Int) - 1) (by omega) (by omega)
    exact ⟨hkey, by dsimp only; omega⟩

/-- The legal error registers (R23, R146): a code of the table, and 0 exactly when no error is latched. -/
abbrev ErrLegal (g : Engine) : Prop := g.errCode.toNat ≤ 8 ∧ (g.err = false ↔ g.errCode = 0)

theorem errLegal_latchError (e : ErrCode) (g : Engine) (h : ErrLegal g) : ErrLegal (latchError (errNumber e) g) := by
  cases hg : g.err with
  | true =>
    rw [latchError_of_set _ g hg]
    exact h
  | false =>
    rw [latchError_of_clear _ g hg]
    have hcode : (errNumber e).toNat ≤ 8 ∧ errNumber e ≠ 0 := by cases e <;> decide
    exact ⟨hcode.1, by simpa using hcode.2⟩

/-! ### The invariant -/

theorem CommandEffect.controlLegal (hc : cfg.Legal) {s t : State cfg} (h : CommandEffect s t)
    (hs : ControlLegal s) : ControlLegal t := by
  cases h with
  | answered v => exact { hs with }
  | rejected e =>
    obtain ⟨hcode, herr⟩ := errLegal_latchError e s.eng ⟨hs.errCode, hs.err⟩
    exact { hs with errCode := hcode, err := herr }
  | clock h => exact { hs with multIdx := h.multIdx_lt hc hs.multIdx, inc := h.inc_range hs.inc }
  | trig u h =>
    cases u with
    | trig0 => exact { hs with trig0 := h.trackLegal hc hs.trig0 }
    | trig1 => exact { hs with trig1 := h.trackLegal hc hs.trig1 }
  | pitch h =>
    exact { hs with
      pitch := h.trackLegal hc hs.pitch
      transpose := h.transposeLegal hc hs.transpose
      note := h.notesLegal hc hs.scale hs.note hs.pitch }
  | quant h =>
    obtain ⟨hkey, hscale⟩ := h.legal hc hs.key hs.scale
    exact { hs with key := hkey, scale := hscale }
  | osc h => exact { hs with }
  | filt h => exact { hs with }
  | env u h => cases u <;> exact { hs with }
  | start =>
    exact { hs with
      trig0 := trackLegal_lastStep hs.trig0
      trig1 := trackLegal_lastStep hs.trig1
      pitch := trackLegal_lastStep hs.pitch }
  | stop => exact { hs with }

theorem SampleEffect.controlLegal {s t : State cfg} (h : SampleEffect s t) (hs : ControlLegal s) :
    ControlLegal t := by
  obtain ⟨-, hmult, hinc⟩ := h.clk_settings_eq
  obtain ⟨-, herr, hcode⟩ := h.eng
  exact
    { multIdx := by rw [hmult]; exact hs.multIdx
      inc := by rw [hinc]; exact hs.inc
      trig0 := h.trig0.trackLegal hs.trig0
      trig1 := h.trig1.trackLegal hs.trig1
      pitch := h.pitch.trackLegal hs.pitch
      transpose := by rw [h.pitch.transpose]; exact hs.transpose
      note := h.pitch.notesLegal hs.note
      key := by rw [h.quant]; exact hs.key
      scale := by rw [h.quant]; exact hs.scale
      errCode := by rw [hcode]; exact hs.errCode
      err := by rw [herr, hcode]; exact hs.err }

/-- The reset length 8 is the one value that not every legal configuration holds (R14; log entry 9). -/
theorem controlLegal_resetEvent (hc : cfg.Legal) (h8 : 8 ≤ cfg.N_MAX) (s : State cfg) :
    ControlLegal s.resetEvent := by
  obtain ⟨-, hrows, -⟩ := hc.scales
  obtain ⟨-, hmin, hmax, -⟩ := hc.transpose
  have hscale : (Quantizer.resetIn cfg).scale.toNat < cfg.NUM_SCALES := hrows
  have htrack : TrackLegal cfg 8 0 := trackLegal_init hc 8 ⟨by omega, h8⟩
  exact
    { multIdx := unity_lt hc
      inc := clkIncOf_range cfg _ _
      trig0 := htrack
      trig1 := htrack
      pitch := htrack
      transpose := ⟨hmin, hmax⟩
      note := notesLegal_default hc _ hscale _ rfl
      key := Nat.zero_le 11
      scale := hscale
      errCode := Nat.zero_le 8
      err := ⟨fun _ => rfl, fun _ => rfl⟩ }

theorem controlLegal_stepIn (hc : cfg.Legal) (h8 : 8 ≤ cfg.N_MAX) (s t : State cfg) (hs : ControlLegal s)
    (h : stepIn s = .next t) : ControlLegal t :=
  stepIn_keeps ControlLegal (fun _ _ hs => { hs with }) (fun _ _ h => h.controlLegal hc)
    (fun _ _ h => h.controlLegal) (controlLegal_resetEvent hc h8) s t hs h

/-- Settles O14: every operand is clamped or checked before it is stored, and every playhead stays below its
length. -/
theorem controlRegistersStayLegal : Obligations.ControlRegistersStayLegal :=
  ⟨fun s t hs h => controlLegal_stepIn reference_legal (by decide) s t hs ((stepIn_reference s).trans h),
    fun _ s t hc h8 => controlLegal_stepIn hc h8 s t⟩

end Sys2Proof.Machine
end

section
/-! PROOFS. Bounds on binary32 results: a bound on the exact result that is itself a finite value bounds the rounded
one, for rounding is monotone (`roundKey_mono`) and leaves such a value alone (`roundKey_units`). -/

namespace Sys2Proof

open Sys2Proof.Machine

/-! ### Bounds as keys and as units -/

theorem F32.key_lt_infMag (a : F32) (h : a.isFinite = true) : -(F32.infMag : Int) < a.key ∧ a.key < F32.infMag := by
  have hlow := (F32.isFinite_iff a).1 h
  unfold F32.key
  cases a.sign <;> simp only [Bool.false_eq_true, if_true, if_false] <;> omega

theorem F32.isFinite_zero : (F32.ofInt 0).isFinite = true := by decide +kernel
theorem F32.key_zero : (F32.ofInt 0).key = 0 := by decide +kernel
theorem F32.units_zero : (F32.ofInt 0).units = 0 := by decide +kernel
theorem F32.isFinite_one : (F32.ofInt 1).isFinite = true := by decide +kernel
theorem F32.units_one : (F32.ofInt 1).units = 2 ^ 149 := by decide +kernel

theorem F32.zero_le_iff (a : F32) : (F32.ofInt 0).le a = true ↔ a.isNaN = false ∧ 0 ≤ a.key := by
  rw [F32.le_iff, F32.key_zero]
  simp [F32.isNaN_of_finite _ F32.isFinite_zero]

theorem F32.zero_lt_iff (a : F32) : (F32.ofInt 0).lt a = true ↔ a.isNaN = false ∧ 0 < a.key := by
  rw [F32.lt_iff, F32.key_zero]
  simp [F32.isNaN_of_finite _ F32.isFinite_zero]

theorem F32.lt_of_not_le (a b : F32) (ha : a.isNaN = false) (hb : b.isNaN = false) (h : ¬a.le b = true) :
    b.lt a = true := by
  rw [F32.le_iff] at h
  exact (F32.lt_iff b a).2 ⟨hb, ha, by simpa [ha, hb] using h⟩

theorem F32.key_le_of_le (a b : F32) (h : a.le b = true) : a.key ≤ b.key := by
  obtain ⟨-, -, hk⟩ := (F32.le_iff a b).1 h
  exact hk

theorem F32.units_le_of_le (a b : F32) (h : a.le b = true) : a.units ≤ b.units :=
  (F32.units_le_units_iff a b).2 (F32.key_le_of_le a b h)

theorem F32.lt_of_le_of_lt (a b c : F32) (hab : a.le b = true) (hbc : b.lt c = true) : a.lt c = true := by
  obtain ⟨ha, -, hk⟩ := (F32.le_iff a b).1 hab
  obtain ⟨-, hc, hk'⟩ := (F32.lt_iff b c).1 hbc
  exact (F32.lt_iff a c).2 ⟨ha, hc, hk.trans_lt hk'⟩

theorem F32.le_of_lt (a b : F32) (h : a.lt b = true) : a.le b = true := by
  obtain ⟨ha, hb, hk⟩ := (F32.lt_iff a b).1 h
  exact (F32.le_iff a b).2 ⟨ha, hb, hk.le⟩

theorem within_iff (x lo hi : F32) (hlo : lo.isFinite = true) (hhi : hi.isFinite = true) :
    Within x lo hi ↔ x.isNaN = false ∧ lo.key ≤ x.key ∧ x.key ≤ hi.key := by
  rw [Within, F32.le_iff, F32.le_iff, lo.isNaN_of_finite hlo, hi.isNaN_of_finite hhi]
  tauto

theorem Machine.Within.isFinite {x lo hi : F32} (h : Within x lo hi) (hlo : lo.isFinite = true)
    (hhi : hi.isFinite = true) : x.isFinite = true := by
  obtain ⟨hx, h1, h2⟩ := (within_iff x lo hi hlo hhi).1 h
  exact x.isFinite_of_key hx ((lo.key_lt_infMag hlo).1.trans_le h1) (h2.trans_lt (hi.key_lt_infMag hhi).2)

theorem Machine.Within.units_le {x lo hi : F32} (h : Within x lo hi) : lo.units ≤ x.units ∧ x.units ≤ hi.units :=
  ⟨lo.units_le_of_le x h.1, x.units_le_of_le hi h.2⟩

/-! ### Bounds on a rounded result -/

/-- `x` is no NaN, and the exact `z / d` units rounded once. -/
structure IsRoundedUnits (x : F32) (z : Int) (d : Nat) : Prop where
  pos : 0 < d
  noNaN : x.isNaN = false
  key : x.key = roundKey z d

theorem IsRoundedUnits.le_of_units_le {x : F32} {z : Int} {d : Nat} (h : IsRoundedUnits x z d) (lo : F32)
    (hlo : lo.isFinite = true) (hz : lo.units * d ≤ z) : lo.le x = true := by
  refine (F32.le_iff lo x).2 ⟨lo.isNaN_of_finite hlo, h.noNaN, ?_⟩
  rw [h.key, ← roundKey_units lo d h.pos hlo]
  exact roundKey_mono _ _ d d h.pos h.pos (Int.mul_le_mul_of_nonneg_right hz (Int.natCast_nonneg d))

theorem IsRoundedUnits.le_of_le_units {x : F32} {z : Int} {d : Nat} (h : IsRoundedUnits x z d) (hi : F32)
    (hhi : hi.isFinite = true) (hz : z ≤ hi.units * d) : x.le hi = true := by
  refine (F32.le_iff x hi).2 ⟨h.noNaN, hi.isNaN_of_finite hhi, ?_⟩
  rw [h.key, ← roundKey_units hi d h.pos hhi]
  exact roundKey_mono _ _ d d h.pos h.pos (Int.mul_le_mul_of_nonneg_right hz (Int.natCast_nonneg d))

theorem F32.isRoundedUnits_add (a b : F32) (ha : a.isFinite = true) (hb : b.isFinite = true) :
    IsRoundedUnits (a.add b) (a.units + b.units) 1 :=
  ⟨Nat.one_pos, (a.key_add b ha hb).1, (a.key_add b ha hb).2⟩

theorem F32.isRoundedUnits_sub (a b : F32) (ha : a.isFinite = true) (hb : b.isFinite = true) :
    IsRoundedUnits (a.sub b) (a.units - b.units) 1 :=
  ⟨Nat.one_pos, (a.key_sub b ha hb).1, (a.key_sub b ha hb).2⟩

theorem F32.isRoundedUnits_mul (a b : F32) (ha : a.isFinite = true) (hb : b.isFinite = true) :
    IsRoundedUnits (a.mul b) (a.units * b.units) (2 ^ 149) :=
  ⟨Nat.two_pow_pos 149, (a.key_mul b ha hb).1, (a.key_mul b ha hb).2⟩

theorem F32.isRoundedUnits_div (a b : F32) (ha : a.isFinite = true) (hb : b.isFinite = true) (h : 0 < b.key) :
    IsRoundedUnits (a.div b) (a.units * 2 ^ 149) b.mag := by
  obtain ⟨hnan, hmag, hkey⟩ := a.key_div b ha hb h
  exact ⟨hmag, hnan, hkey⟩

theorem F32.isRoundedUnits_ofInt (z : Int) : IsRoundedUnits (F32.ofInt z) (z * 2 ^ 149) 1 := by
  have hsign : decide (z < 0) = decide (z * 2 ^ 149 < 0) := by
    simp only [decide_eq_decide]
    omega
  have habs : z.natAbs * 2 ^ 149 = (z * 2 ^ 149).natAbs := by
    rw [Int.natAbs_mul]
    rfl
  refine ⟨Nat.one_pos, F32.isNaN_pack_roundMag _ _ _, ?_⟩
  unfold F32.ofInt F32.ofRat
  rw [hsign, habs, key_pack_round]

/-! ### Operands that may be an infinity -/

theorem F32.isFinite_or_isInf (a : F32) (h : a.isNaN = false) : a.isFinite = true ∨ a.isInf = true := by
  rw [F32.isNaN_eq_false_iff] at h
  rw [F32.isFinite_iff, F32.isInf_iff]
  omega

/-- An infinity that is not below 0 is +inf. -/
theorem F32.isNegative_of_isInf (a : F32) (h : a.isInf = true) (h0 : 0 ≤ a.key) : a.isNegative = false := by
  have hlow := (F32.isInf_iff a).1 h
  rw [F32.isNegative_eq_sign]
  unfold F32.key at h0
  cases hs : a.sign
  · rfl
  · rw [hs, hlow] at h0
    simp at h0

theorem F32.isNegative_of_key_pos (a : F32) (h : 0 < a.key) : a.isNegative = false := by
  rw [F32.isNegative_eq_sign]
  unfold F32.key at h
  cases hs : a.sign
  · rfl
  · rw [hs] at h
    simp only [if_true] at h
    omega

theorem F32.zero_le_add (a b : F32) (ha : (F32.ofInt 0).le a = true) (hb : (F32.ofInt 0).le b = true)
    (hbf : b.isFinite = true) : (F32.ofInt 0).le (a.add b) = true := by
  obtain ⟨hna, hka⟩ := a.zero_le_iff.1 ha
  obtain ⟨-, hkb⟩ := b.zero_le_iff.1 hb
  rcases a.isFinite_or_isInf hna with haf | hai
  · have hua := a.units_nonneg_iff.2 hka
    have hub := b.units_nonneg_iff.2 hkb
    exact (a.isRoundedUnits_add b haf hbf).le_of_units_le _ F32.isFinite_zero (by rw [F32.units_zero]; omega)
  · rw [(a.add_inf_finite b hai hbf).1]
    exact ha

theorem F32.zero_le_mul (a b : F32) (ha : (F32.ofInt 0).le a = true) (hb : (F32.ofInt 0).le b = true)
    (haf : a.isFinite = true) (hbf : b.isFinite = true) : (F32.ofInt 0).le (a.mul b) = true := by
  have hua := a.units_nonneg_iff.2 (a.zero_le_iff.1 ha).2
  have hub := b.units_nonneg_iff.2 (b.zero_le_iff.1 hb).2
  refine (a.isRoundedUnits_mul b haf hbf).le_of_units_le _ F32.isFinite_zero ?_
  rw [F32.units_zero, Int.zero_mul]
  exact Int.mul_nonneg hua hub

theorem F32.zero_le_div (a b : F32) (ha : (F32.ofInt 0).le a = true) (hbf : b.isFinite = true) (hb : 0 < b.key) :
    (F32.ofInt 0).le (a.div b) = true := by
  obtain ⟨hna, hka⟩ := a.zero_le_iff.1 ha
  rcases a.isFinite_or_isInf hna with haf | hai
  · have hua := a.units_nonneg_iff.2 hka
    exact (a.isRoundedUnits_div b haf hbf hb).le_of_units_le _ F32.isFinite_zero
      (by rw [F32.units_zero]; omega)
  · rw [(a.div_inf_finite b hai hbf).1, a.isNegative_of_isInf hai hka, b.isNegative_of_key_pos hb]
    decide +kernel

/-- `1 -f q` for a `q` from 0 to +inf. -/
theorem F32.one_sub_le (q : F32) (hq : (F32.ofInt 0).le q = true) :
    ((F32.ofInt 1).sub q).le (F32.ofInt 1) = true := by
  obtain ⟨hnq, hkq⟩ := q.zero_le_iff.1 hq
  rcases q.isFinite_or_isInf hnq with hqf | hqi
  · have huq := q.units_nonneg_iff.2 hkq
    have hsub := (F32.ofInt 1).isRoundedUnits_sub q F32.isFinite_one hqf
    exact hsub.le_of_le_units _ F32.isFinite_one (by omega)
  · rw [(q.sub_inf_finite _ hqi F32.isFinite_one).2, q.isNegative_of_isInf hqi hkq]
    decide +kernel

/-- A finite nonzero value times one that is no NaN is no NaN. -/
theorem F32.isNaN_mul_eq_false (a b : F32) (ha : a.isFinite = true) (ha0 : a.low ≠ 0) (hb : b.isNaN = false) :
    (a.mul b).isNaN = false := by
  rcases b.isFinite_or_isInf hb with hbf | hbi
  · exact (a.key_mul b ha hbf).1
  · rw [((b.mul_inf a hbi (a.isNaN_of_finite ha)).1 ha0).2]
    cases (b.isNegative != a.isNegative) <;> decide

end Sys2Proof
end

section
/-! PROOFS. The binary32 registers whose range 10_state.md states (R12, R19, R20, R22) stay in it: settings are
clamped, and what a sample step computes is bounded by its exact result. This hardware's configuration throughout,
for the ranges rest on its sample rate and its EXP2. -/

namespace Sys2Proof.Machine

open Sys2Proof

/-! ### The pitch pushed into the oscillator (R67, R85) -/

/-- EXP2 of a finite operand is no NaN (R7). -/
theorem exp2_isNaN (x : F32) (h : x.isFinite = true) : x.exp2.isNaN = false := by
  rw [F32.exp2, if_pos h]
  dsimp only
  split
  · split
    · exact F32.isNaN_pack _ _ (Nat.zero_le _)
    · exact F32.isNaN_pack_roundMag _ _ _
  · split
    · exact F32.isNaN_pack _ _ le_rfl
    · exact F32.isNaN_pack_roundMag _ _ _

/-- A note's distance from ROOT_NOTE, in octaves, is finite. -/
theorem isFinite_octaves (z : Int) (h1 : -65536 ≤ z) (h2 : z ≤ 65536) :
    ((F32.ofInt z).div (F32.ofInt 12)).isFinite = true := by
  have hlo : (F32.ofInt (-65536)).isFinite = true ∧ (F32.ofInt (-65536)).units = -65536 * 2 ^ 149 := by
    decide +kernel
  have hhi : (F32.ofInt 65536).isFinite = true ∧ (F32.ofInt 65536).units = 65536 * 2 ^ 149 := by decide +kernel
  obtain ⟨hfin, hpos, hmag⟩ : (F32.ofInt 12).isFinite = true ∧ 0 < (F32.ofInt 12).key ∧
      (F32.ofInt 12).mag = 12 * 2 ^ 149 := by decide +kernel
  have hround := F32.isRoundedUnits_ofInt z
  have hz : Within (F32.ofInt z) (F32.ofInt (-65536)) (F32.ofInt 65536) :=
    ⟨hround.le_of_units_le _ hlo.1 (by omega), hround.le_of_le_units _ hhi.1 (by omega)⟩
  have hdiv := (F32.ofInt z).isRoundedUnits_div (F32.ofInt 12) (hz.isFinite hlo.1 hhi.1) hfin hpos
  have hunits := hz.units_le
  rw [hmag] at hdiv
  exact Within.isFinite ⟨hdiv.le_of_units_le _ hlo.1 (by push_cast; omega),
    hdiv.le_of_le_units _ hhi.1 (by push_cast; omega)⟩ hlo.1 hhi.1

/-- PITCH_FREQ() is no NaN, whatever the pitch sequencer holds: its notes have 16 bits and its transpose 8. -/
theorem pitchFreq_isNaN (k : PitchTrack) : (pitchFreq k).isNaN = false := by
  have hnote : -32768 ≤ k.noteAt k.cur.toNat ∧ k.noteAt k.cur.toNat < 32768 :=
    ⟨BitVec.le_toInt _, BitVec.toInt_lt⟩
  have htranspose : -128 ≤ k.transpose.toInt ∧ k.transpose.toInt < 128 := ⟨BitVec.le_toInt _, BitVec.toInt_lt⟩
  have hexp := exp2_isNaN _ (isFinite_octaves (currentNote k - 69) (by unfold currentNote; omega)
    (by unfold currentNote; omega))
  exact F32.isNaN_mul_eq_false _ _ (by decide +kernel) (by decide +kernel) hexp

/-! ### The clock -/

theorem ClockWrite.freq_pos {c c' : Clock} (h : ClockWrite c c') (hc : (F32.ofInt 0).lt c.freq = true) :
    (F32.ofInt 0).lt c'.freq = true := by
  cases h with
  | init f hf => exact f.zero_lt_iff.2 ((badClockFreq_eq_false_iff f).1 hf)
  | setFreq f hf => exact f.zero_lt_iff.2 ((badClockFreq_eq_false_iff f).1 hf)
  | setMult | phaseToEnd => exact hc

/-! ### The oscillator -/

/-- The legal binary32 registers of the oscillator (R19). -/
structure OscLegal (o : Oscillator) : Prop where
  freq : Within o.freq (F32.ofInt 0) (nyqF32 Config.reference)
  inc : Within o.inc (F32.ofInt 0) (F32.ofRat 1 2)
  amp : Within o.amp (F32.ofInt 0) (F32.ofInt 1)
  phase : (F32.ofInt 0).le o.phase = true ∧ o.phase.lt (F32.ofInt 1) = true

/-- OSC_INC is at most half a turn, for OSC_FREQ is at most half of the sample rate (R97). -/
theorem oscInc_within (g : F32) (h : Within g (F32.ofInt 0) (nyqF32 Config.reference)) :
    Within (g.div (srF32 Config.reference)) (F32.ofInt 0) (F32.ofRat 1 2) := by
  rw [nyqF32_reference] at h
  rw [srF32_reference]
  have hz := F32.units_zero
  have hnyq : (F32.ofInt 24000).isFinite = true ∧ (F32.ofInt 24000).units = 24000 * 2 ^ 149 := by decide +kernel
  obtain ⟨hfin, hpos, hmag⟩ : (F32.ofInt 48000).isFinite = true ∧ 0 < (F32.ofInt 48000).key ∧
      (F32.ofInt 48000).mag = 48000 * 2 ^ 149 := by decide +kernel
  have hhalf : (F32.ofRat 1 2).isFinite = true ∧ (F32.ofRat 1 2).units = 2 ^ 148 := by decide +kernel
  have hdiv := g.isRoundedUnits_div _ (h.isFinite F32.isFinite_zero hnyq.1) hfin hpos
  have hunits := h.units_le
  rw [hmag] at hdiv
  exact ⟨hdiv.le_of_units_le _ F32.isFinite_zero (by push_cast; omega),
    hdiv.le_of_le_units _ hhalf.1 (by push_cast; omega)⟩

theorem oscLegal_oscSetFreqInt (f : F32) (hf : f.isNaN = false) {o : Oscillator} (ho : OscLegal o) :
    OscLegal (oscSetFreqInt f o) := by
  have hfreq : Within (f.clamp (F32.ofInt 0) (nyqF32 Config.reference)) (F32.ofInt 0) (nyqF32 Config.reference) :=
    F32.clamp_within f _ _ hf (by decide +kernel) (by decide +kernel) (by decide +kernel)
  exact ⟨hfreq, oscInc_within _ hfreq, ho.amp, ho.phase⟩

/-- The phase wraps at 1 (R99): a sum below 1.5 leaves less than 1. -/
theorem nextPhase_range (p dt : F32) (hp : (F32.ofInt 0).le p = true ∧ p.lt (F32.ofInt 1) = true)
    (hdt : Within dt (F32.ofInt 0) (F32.ofRat 1 2)) :
    (F32.ofInt 0).le (nextPhase p dt) = true ∧ (nextPhase p dt).lt (F32.ofInt 1) = true := by
  have hz := F32.units_zero
  obtain ⟨hfin, hhalf, hlt⟩ : (F32.ofRat 1 2).isFinite = true ∧ (F32.ofRat 1 2).units = 2 ^ 148 ∧
      (F32.ofRat 1 2).lt (F32.ofInt 1) = true := by decide +kernel
  have hone := F32.units_one
  have hlimit : (F32.ofRat 3 2).isFinite = true ∧ (F32.ofRat 3 2).units = 3 * 2 ^ 148 := by decide +kernel
  have hp' : Within p (F32.ofInt 0) (F32.ofInt 1) := ⟨hp.1, F32.le_of_lt _ _ hp.2⟩
  have hadd := p.isRoundedUnits_add dt (hp'.isFinite F32.isFinite_zero F32.isFinite_one)
    (hdt.isFinite F32.isFinite_zero hfin)
  have hpu := hp'.units_le
  have hdu := hdt.units_le
  have hsum : Within (p.add dt) (F32.ofInt 0) (F32.ofRat 3 2) :=
    ⟨hadd.le_of_units_le _ F32.isFinite_zero (by omega), hadd.le_of_le_units _ hlimit.1 (by omega)⟩
  unfold nextPhase
  dsimp only
  split
  · rename_i hwrap
    have hlo := F32.units_le_of_le _ _ hwrap
    have hhi := hsum.units_le
    have hsub := (p.add dt).isRoundedUnits_sub _ (hsum.isFinite F32.isFinite_zero hlimit.1) F32.isFinite_one
    have hle := hsub.le_of_le_units (F32.ofRat 1 2) hfin (by omega)
    exact ⟨hsub.le_of_units_le _ F32.isFinite_zero (by omega), F32.lt_of_le_of_lt _ _ _ hle hlt⟩
  · rename_i hwrap
    exact ⟨hsum.1, F32.lt_of_not_le _ _ (F32.isNaN_of_finite _ F32.isFinite_one) hadd.noNaN hwrap⟩

theorem oscLegal_oscProcess {o : Oscillator} (ho : OscLegal o) : OscLegal (oscProcess o) := by
  constructor
  · rw [oscProcess_freq]; exact ho.freq
  · rw [oscProcess_inc]; exact ho.inc
  · rw [oscProcess_amp]; exact ho.amp
  · rw [oscProcess_phase]; exact nextPhase_range _ _ ho.phase ho.inc

theorem OscWrite.legal {o o' : Oscillator} (h : OscWrite o o') (ho : OscLegal o) : OscLegal o' := by
  cases h with
  | setFreq f hf => exact oscLegal_oscSetFreqInt f hf ho
  | setAmp a ha =>
    exact { ho with amp := F32.clamp_within a _ _ ha (by decide +kernel) (by decide +kernel) (by decide +kernel) }
  | setMode => exact { ho with }

theorem OscSample.legal {o o' : Oscillator} (h : OscSample o o') (ho : OscLegal o) : OscLegal o' := by
  cases h with
  | still => exact ho
  | run => exact oscLegal_oscProcess ho
  | retune k => exact oscLegal_oscProcess (oscLegal_oscSetFreqInt _ (pitchFreq_isNaN k) ho)

/-! ### The filter -/

/-- The legal settings of the filter (R20), which FILT_EFF follows. -/
structure FiltSettingsLegal (u : FilterUnit) : Prop where
  freq : Within u.freq (F32.ofInt 20) (F32.ofInt 20000)
  q : Within u.q minQ (F32.ofInt 5)
  mod : Within u.mod (F32.ofInt (-20000)) (F32.ofInt 20000)
  depth : Within u.depth (F32.ofInt (-20000)) (F32.ofInt 20000)

/-- The legal binary32 registers of the filter (R20). -/
structure FiltLegal (u : FilterUnit) : Prop extends FiltSettingsLegal u where
  eff : Within u.eff (F32.ofInt 20) (F32.ofInt 20000)

theorem clampFiltFreq_within (f : F32) (hf : f.isNaN = false) :
    Within (clampFiltFreq f) (F32.ofInt 20) (F32.ofInt 20000) :=
  F32.clamp_within f _ _ hf (by decide +kernel) (by decide +kernel) (by decide +kernel)

theorem clampOffset_within (d : F32) (hd : d.isNaN = false) :
    Within (clampOffset d) (F32.ofInt (-20000)) (F32.ofInt 20000) :=
  F32.clamp_within d _ _ hd (by decide +kernel) (by decide +kernel) (by decide +kernel)

/-- FILT_EFF is in its range, for the sum it clamps is one of finite values (R111). -/
theorem filtLegal_filtRecompute {u : FilterUnit} (hu : FiltSettingsLegal u) : FiltLegal (filtRecompute u) := by
  have hfreq := hu.freq.isFinite (by decide +kernel) (by decide +kernel)
  have hmod := hu.mod.isFinite (by decide +kernel) (by decide +kernel)
  exact { hu with eff := clampFiltFreq_within _ (F32.key_add _ _ hfreq hmod).1 }

/-- An offset scaled by an envelope's output stays in the range of the offsets (R136). -/
theorem mod_within (out depth : F32) (hout : Within out (F32.ofInt 0) (F32.ofInt 1))
    (hdepth : Within depth (F32.ofInt (-20000)) (F32.ofInt 20000)) :
    Within (out.mul depth) (F32.ofInt (-20000)) (F32.ofInt 20000) := by
  have hz := F32.units_zero
  have hone := F32.units_one
  have hlo : (F32.ofInt (-20000)).isFinite = true ∧ (F32.ofInt (-20000)).units ≤ 0 := by decide +kernel
  have hhi : (F32.ofInt 20000).isFinite = true ∧ 0 ≤ (F32.ofInt 20000).units := by decide +kernel
  have hmul := out.isRoundedUnits_mul depth (hout.isFinite F32.isFinite_zero F32.isFinite_one)
    (hdepth.isFinite hlo.1 hhi.1)
  have hou := hout.units_le
  have hdu := hdepth.units_le
  rw [hz, hone] at hou
  refine ⟨hmul.le_of_units_le _ hlo.1 ?_, hmul.le_of_le_units _ hhi.1 ?_⟩ <;> push_cast <;> nlinarith

theorem FiltWrite.legal {u u' : FilterUnit} (h : FiltWrite u u') (hu : FiltLegal u) : FiltLegal u' := by
  have hs := hu.toFiltSettingsLegal
  cases h with
  | setFreq f hf => exact filtLegal_filtRecompute { hs with freq := clampFiltFreq_within f hf }
  | setQ q hq =>
    exact filtLegal_filtRecompute
      { hs with q := F32.clamp_within q _ _ hq (by decide +kernel) (by decide +kernel) (by decide +kernel) }
  | addFreq d hd => exact filtLegal_filtRecompute { hs with mod := clampOffset_within d hd }
  | setDepth d hd => exact { hu with depth := clampOffset_within d hd }

theorem FiltSample.legal {out : F32} {u u' : FilterUnit} (h : FiltSample out u u')
    (hout : Within out (F32.ofInt 0) (F32.ofInt 1)) (hu : FiltLegal u) : FiltLegal u' := by
  cases h with
  | still => exact hu
  | run x0 =>
    have hs : FiltSettingsLegal { u with mod := out.mul u.depth } :=
      { hu.toFiltSettingsLegal with mod := mod_within _ _ hout hu.depth }
    exact { filtLegal_filtRecompute hs with }

/-! ### The envelopes -/

/-- A stage time is finite and above 0 (R22). -/
theorem time_pos (t : F32) (h : Within t (F32.ofRat 1 1000) (F32.ofInt 10)) :
    t.isFinite = true ∧ 0 < t.key ∧ (F32.ofInt 0).le t = true := by
  have hlo : (F32.ofRat 1 1000).isFinite = true ∧ 0 < (F32.ofRat 1 1000).key := by decide +kernel
  have hhi : (F32.ofInt 10).isFinite = true := by decide +kernel
  obtain ⟨hnan, hk, -⟩ := (within_iff _ _ _ hlo.1 hhi).1 h
  have hpos := hlo.2.trans_le hk
  exact ⟨h.isFinite hlo.1 hhi, hpos, t.zero_le_iff.2 ⟨hnan, hpos.le⟩⟩

theorem clampTime_within (t : F32) (ht : t.isNaN = false) : Within (clampTime t) (F32.ofRat 1 1000) (F32.ofInt 10) :=
  F32.clamp_within t _ _ ht (by decide +kernel) (by decide +kernel) (by decide +kernel)

/-- The timer after one more sample period is not below 0 (R126). -/
theorem timer_add_nonneg (t : F32) (h : (F32.ofInt 0).le t = true) :
    (F32.ofInt 0).le (t.add (invSr Config.reference)) = true :=
  F32.zero_le_add t _ h (by decide +kernel) (by decide +kernel)

theorem zero_le_zero : (F32.ofInt 0).le (F32.ofInt 0) = true := by decide +kernel

/-- ENV_TRIGGER_INT seeds the timer from the output, which is finite (R125). -/
theorem envelopeLegal_envTriggerInt {e : Envelope} (he : EnvelopeLegal e) : EnvelopeLegal (envTriggerInt e) := by
  obtain ⟨hfin, -, hnonneg⟩ := time_pos _ he.attack
  have hout := he.out.isFinite F32.isFinite_zero F32.isFinite_one
  have htimer : (F32.ofInt 0).le (envTriggerInt e).timer = true := by
    unfold envTriggerInt
    dsimp only
    split
    · exact zero_le_zero
    · exact F32.zero_le_mul _ _ he.out.1 hnonneg hout hfin
  exact ⟨he.attack, he.decay, htimer, he.out, nofun, nofun⟩

theorem envelopeLegal_envAttack {e : Envelope} (he : EnvelopeLegal e) (hs : e.stage = .attack) :
    EnvelopeLegal (envAttack e) := by
  obtain ⟨hfin, hpos, -⟩ := time_pos _ he.attack
  have htimer := timer_add_nonneg _ he.timer
  have hout := F32.zero_le_div _ _ htimer hfin hpos
  unfold envAttack
  dsimp only
  split
  · have htop : Within (F32.ofInt 1) (F32.ofInt 0) (F32.ofInt 1) ∧ (F32.ofInt 0).lt (F32.ofInt 1) = true := by
      decide +kernel
    exact ⟨he.attack, he.decay, zero_le_zero, htop.1, nofun, fun _ => htop.2⟩
  · rename_i hend
    have hlt := F32.lt_of_not_le _ _ (by decide +kernel) (F32.zero_le_iff _ |>.1 hout).1 hend
    exact ⟨he.attack, he.decay, htimer, ⟨hout, F32.le_of_lt _ _ hlt⟩, by simp [hs], by simp [hs]⟩

/-- A decay that has not ended is above ENV_EPS, so above 0 (R126). -/
theorem envelopeLegal_envDecay {e : Envelope} (he : EnvelopeLegal e) (hs : e.stage = .decay) :
    EnvelopeLegal (envDecay e) := by
  obtain ⟨hfin, hpos, -⟩ := time_pos _ he.decay
  have htimer := timer_add_nonneg _ he.timer
  have hout := F32.one_sub_le _ (F32.zero_le_div _ _ htimer hfin hpos)
  unfold envDecay
  dsimp only
  split
  · have hrest : Within (F32.ofInt 0) (F32.ofInt 0) (F32.ofInt 1) ∧ (F32.ofInt 0).eqv (F32.ofInt 0) = true := by
      decide +kernel
    exact ⟨he.attack, he.decay, zero_le_zero, hrest.1, fun _ => ⟨hrest.2, hrest.2⟩, nofun⟩
  · rename_i hend
    have heps : 0 < Config.reference.ENV_EPS.key := by decide +kernel
    obtain ⟨-, hnan, hk⟩ := (F32.lt_iff _ _).1
      (F32.lt_of_not_le _ _ ((F32.le_iff _ _).1 hout).1 (by decide +kernel) hend)
    have habove := (F32.zero_lt_iff _).2 ⟨hnan, heps.trans hk⟩
    exact ⟨he.attack, he.decay, htimer, ⟨F32.le_of_lt _ _ habove, hout⟩, by simp [hs], fun _ => habove⟩

theorem envelopeLegal_envProcess {e : Envelope} (he : EnvelopeLegal e) : EnvelopeLegal (envProcess e) := by
  cases hs : e.stage with
  | idle =>
    rw [envProcess_of_idle e hs]
    exact he
  | attack =>
    rw [envProcess_of_attack e hs]
    exact envelopeLegal_envAttack he hs
  | decay =>
    rw [envProcess_of_decay e hs]
    exact envelopeLegal_envDecay he hs

theorem EnvWrite.legal {e e' : Envelope} (h : EnvWrite e e') (he : EnvelopeLegal e) : EnvelopeLegal e' := by
  cases h with
  | setAttack t ht => exact { he with attack := clampTime_within t ht }
  | setDecay t ht => exact { he with decay := clampTime_within t ht }
  | trigger => exact envelopeLegal_envTriggerInt he

theorem EnvSample.legal {e e' : Envelope} (h : EnvSample e e') (he : EnvelopeLegal e) : EnvelopeLegal e' := by
  cases h with
  | still => exact he
  | run => exact envelopeLegal_envProcess he
  | restart => exact envelopeLegal_envProcess (envelopeLegal_envTriggerInt he)

/-! ### The invariant -/

theorem SignalLegal.oscLegal {s : State} (hs : SignalLegal s) : OscLegal s.osc :=
  ⟨hs.oscFreq, hs.oscInc, hs.oscAmp, hs.oscPhase⟩

theorem SignalLegal.filtLegal {s : State} (hs : SignalLegal s) : FiltLegal s.filt :=
  ⟨⟨hs.filtFreq, hs.filtQ, hs.filtMod, hs.filtDepth⟩, hs.filtEff⟩

/-- The invariant from its components. -/
theorem signalLegal_of_components {s : State} (hclk : (F32.ofInt 0).lt s.clk.freq = true) (hosc : OscLegal s.osc)
    (hfilt : FiltLegal s.filt) (henv0 : EnvelopeLegal s.env0) (henv1 : EnvelopeLegal s.env1) : SignalLegal s :=
  ⟨hclk, hosc.freq, hosc.inc, hosc.amp, hosc.phase, hfilt.freq, hfilt.q, hfilt.mod, hfilt.depth, hfilt.eff, henv0,
    henv1⟩

theorem CommandEffect.signalLegal {s t : State} (h : CommandEffect s t) (hs : SignalLegal s) : SignalLegal t := by
  cases h with
  | answered v => exact { hs with }
  | rejected e => exact { hs with }
  | clock h => exact { hs with clkFreq := h.freq_pos hs.clkFreq }
  | trig u h => cases u <;> exact { hs with }
  | pitch h => exact { hs with }
  | quant h => exact { hs with }
  | osc h => exact signalLegal_of_components hs.clkFreq (h.legal hs.oscLegal) hs.filtLegal hs.env0 hs.env1
  | filt h => exact signalLegal_of_components hs.clkFreq hs.oscLegal (h.legal hs.filtLegal) hs.env0 hs.env1
  | env u h =>
    cases u with
    | env0 => exact { hs with env0 := h.legal hs.env0 }
    | env1 => exact { hs with env1 := h.legal hs.env1 }
  | start => exact { hs with }
  | stop => exact { hs with }

theorem SampleEffect.signalLegal {s t : State} (h : SampleEffect s t) (hs : SignalLegal s) : SignalLegal t := by
  have henv1 := h.env1.legal hs.env1
  exact signalLegal_of_components (h.clk_settings_eq.1 ▸ hs.clkFreq) (h.osc.legal hs.oscLegal)
    (h.filt.legal henv1.out hs.filtLegal) (h.env0.legal hs.env0) henv1

theorem envelopeLegal_reset : EnvelopeLegal (Envelope.reset (cfg := Config.reference)) := by
  constructor <;> decide +kernel

theorem signalLegal_resetIn : SignalLegal (State.resetIn Config.reference) := by
  rw [resetIn_reference]
  refine ⟨?_, ?_, ?_, ?_, ?_, ?_, ?_, ?_, ?_, ?_, envelopeLegal_reset, envelopeLegal_reset⟩ <;> decide +kernel

/-- Settles O18: each component's writes and its sample keep its ranges. -/
theorem signalRegistersStayInRange : Obligations.SignalRegistersStayInRange := fun s t hs h =>
  stepIn_keeps SignalLegal (fun _ _ hs => { hs with }) (fun _ _ h => h.signalLegal) (fun _ _ h => h.signalLegal)
    (fun _ => { signalLegal_resetIn with }) s t hs ((stepIn_reference s).trans h)

end Sys2Proof.Machine
end

section
/-! PROOFS. The state-changing events (R36) one by one, and the frame of the queries (R48): a query gives one response
and reads the rest. -/

namespace Sys2Proof.Machine

open Sys2Proof

variable {cfg : Config}

/-! ### The result of a query -/

/-- The result `r` is one that a query can have from `s`: an answer, or a rejection by one of the two checks that a
query's operand can fail, of a step index (R75, R77) or of a note (R89 to R91). -/
inductive QueryResult (s : State cfg) : Result cfg → Prop
  | answered (v : Word) : QueryResult s (.next (s.answer v))
  | badIndex : QueryResult s (.next (s.reject .index))
  | badNote : QueryResult s (.next (s.reject .noteRange))

/-- A query with one check (R47 step 4): rejected where the check fails, and else answered. -/
theorem queryResult_ite (s : State cfg) (bad : Bool) (e : ErrCode) (v : Word)
    (he : QueryResult s (.next (s.reject e))) :
    QueryResult s (if bad then .next (s.reject e) else .next (s.answer v)) := by
  cases bad with
  | true => exact he
  | false => exact .answered v

/-- WHAT A QUERY CAN DO, in every configuration (R4). -/
theorem execIn_queryResult (i : Instr) (s : State cfg) (hq : i.isQuery = true) : QueryResult s (execIn i s) := by
  cases i with
  | engGetId | engGetStatus | engGetErrCode | engGetOut | clkGetFreq | clkGetMult | clkGetPhase | clkGetInc
  | seqGetCurrent | seqGetLength | trigGetCurrentActive | pitchGetTranspose | pitchGetCurrentFreq
  | pitchGetCurrentName | qGetKey | qGetScale | oscGetFreq | oscGetAmp | oscGetMode | oscGetPhase
  | oscGetSineState | filtGetFreq | filtGetQ | filtGetMod | filtGetEffFreq | filtGetEnvDepth | filtGetCoef
  | filtGetState | envGetAttack | envGetDecay | envGetOutput | envGetStage | envGetTimer => exact .answered _
  | trigGetStep | pitchGetNote => exact queryResult_ite s _ _ _ .badIndex
  | qQuantize | qNoteToHz | qNoteToName => exact queryResult_ite s _ _ _ .badNote
  | nop | transportStart | transportStop | clkInit | clkSetFreq | clkSetBpm | clkSetMult | clkSetPhaseToEnd
  | seqInit | seqSetCurrent | trigToggle | pitchSetNote | pitchSetTranspose | qSetKey | qSetScale | oscSetFreq
  | oscSetAmp | oscSetMode | filtSetFreq | filtSetQ | filtAddFreq | filtSetEnvDepth | envSetAttack | envSetDecay
  | envTrigger => exact absurd hq Bool.false_ne_true

/-- Settles O9, by the three results a query can have. -/
theorem queriesWriteNothing : Obligations.QueriesWriteNothing := by
  intro i s t hq h
  have hr : QueryResult s (.next t) := by
    rw [← h, ← execIn_reference i s]
    exact execIn_queryResult i s hq
  cases hr with
  | answered v => exact .inl ⟨v, s.answer_eq_answeredWith v⟩
  | badIndex => exact .inr ⟨4, by simp, s.reject_eq_rejectedWith .index⟩
  | badNote => exact .inr ⟨5, by simp, s.reject_eq_rejectedWith .noteRange⟩

/-! ### A step, by the event it applies -/

theorem applyCommand_of_ok (run : Instr → State cfg → Result cfg) (c : Command) (i : Instr) (s : State cfg)
    (hd : decode c = .ok i) : applyCommand run c s = run i s := by
  unfold applyCommand
  rw [hd]

theorem stepIn_of_command (s : State cfg) (c : Command) (rest : List Event) (i : Instr)
    (hi : s.inputs = .command c :: rest) (hd : decode c = .ok i) : stepIn s = execIn i (s.setInputs rest) :=
  (stepIn_of_cons s _ rest hi).trans (applyCommand_of_ok execIn c i _ hd)

theorem stepIn_of_sample (s : State cfg) (rest : List Event) (hi : s.inputs = .sample :: rest) :
    stepIn s = .next (sampleStep (s.setInputs rest)) := stepIn_of_cons s _ rest hi

theorem stepIn_of_reset (s : State cfg) (rest : List Event) (hi : s.inputs = .reset :: rest) :
    stepIn s = .next (s.setInputs rest).resetEvent := stepIn_of_cons s _ rest hi

/-- In the reference configuration a reset event gives the registers of `State.reset` (R160). -/
theorem resetEvent_reference (s : State) : s.resetEvent =
    { State.reset with inputs := s.inputs, responses := s.responses, audioOut := s.audioOut } := by
  rw [State.resetEvent, resetIn_reference]

/-- Settles O5: the step of every configuration, read in the reference one. -/
theorem stepRunsTheDecodedCommand : Obligations.StepRunsTheDecodedCommand := by
  refine ⟨fun s c rest i hi hd => ?_, fun _ => stepIn_of_command, fun s =>
    ⟨stepIn_reference s, fun i => execIn_reference i s⟩⟩
  calc step s = stepIn s := (stepIn_reference s).symm
    _ = execIn i (s.setInputs rest) := stepIn_of_command s c rest i hi hd
    _ = exec i (s.setInputs rest) := execIn_reference i _

/-- Settles O7: the step of every configuration, read in the reference one, whose reset state is `State.reset`. -/
theorem stepAppliesSampleRequestsAndResets : Obligations.StepAppliesSampleRequestsAndResets := by
  refine ⟨fun s rest => ⟨fun hi => ?_, fun hi => ?_⟩, fun _ s rest =>
    ⟨stepIn_of_sample s rest, stepIn_of_reset s rest⟩, resetIn_reference⟩
  · exact (stepIn_reference s).symm.trans (stepIn_of_sample s rest hi)
  · calc step s = stepIn s := (stepIn_reference s).symm
      _ = .next (s.setInputs rest).resetEvent := stepIn_of_reset s rest hi
      _ = _ := congrArg _ (resetEvent_reference (s.setInputs rest))

end Sys2Proof.Machine
end

section
/-! PROOFS. The encoding (R43 to R48). What decodes to a command is exactly what encodes it (`decode_eq_ok_iff`): one
way by the command's constructors, the other by the arms of `decode`, each of which is one of five forms and stands
beside its row of R48 (`decode_arm`). -/

namespace Sys2Proof

open Sys2Proof.Machine

/-! ### Selectors and fields -/

section
variable (v : BitVec 8)

@[simp] theorem seqSelOf_eq_some_iff (u : SeqSel) : seqSelOf v = some u ↔ v = seqSelNumber u :=
  ⟨fun h => (seqSelNumber_of v u h).symm, fun h => h ▸ seqSelOf_number u⟩
@[simp] theorem trigSelOf_eq_some_iff (u : TrigSel) : trigSelOf v = some u ↔ v = trigSelNumber u :=
  ⟨fun h => (trigSelNumber_of v u h).symm, fun h => h ▸ trigSelOf_number u⟩
@[simp] theorem envSelOf_eq_some_iff (u : EnvSel) : envSelOf v = some u ↔ v = envSelNumber u :=
  ⟨fun h => (envSelNumber_of v u h).symm, fun h => h ▸ envSelOf_number u⟩
@[simp] theorem halfSelOf_eq_some_iff (u : HalfSel) : halfSelOf v = some u ↔ v = halfSelNumber u :=
  ⟨fun h => (halfSelNumber_of v u h).symm, fun h => h ▸ halfSelOf_number u⟩
@[simp] theorem channelSelOf_eq_some_iff (u : ChannelSel) : channelSelOf v = some u ↔ v = channelSelNumber u :=
  ⟨fun h => (channelSelNumber_of v u h).symm, fun h => h ▸ channelSelOf_number u⟩
@[simp] theorem coefSelOf_eq_some_iff (u : CoefSel) : coefSelOf v = some u ↔ v = coefSelNumber u :=
  ⟨fun h => (coefSelNumber_of v u h).symm, fun h => h ▸ coefSelOf_number u⟩
@[simp] theorem histSelOf_eq_some_iff (u : HistSel) : histSelOf v = some u ↔ v = histSelNumber u :=
  ⟨fun h => (histSelNumber_of v u h).symm, fun h => h ▸ histSelOf_number u⟩
@[simp] theorem sineSelOf_eq_some_iff (u : SineSel) : sineSelOf v = some u ↔ v = sineSelNumber u :=
  ⟨fun h => (sineSelNumber_of v u h).symm, fun h => h ▸ sineSelOf_number u⟩

/-! The number of legal values of each selector, `SEL_LIMIT` in R48. -/

@[simp] theorem seqSelOf_eq_none_iff : seqSelOf v = none ↔ 3 ≤ v.toNat := by revert v; decide
@[simp] theorem trigSelOf_eq_none_iff : trigSelOf v = none ↔ 2 ≤ v.toNat := by revert v; decide
@[simp] theorem envSelOf_eq_none_iff : envSelOf v = none ↔ 2 ≤ v.toNat := by revert v; decide
@[simp] theorem halfSelOf_eq_none_iff : halfSelOf v = none ↔ 2 ≤ v.toNat := by revert v; decide
@[simp] theorem channelSelOf_eq_none_iff : channelSelOf v = none ↔ 2 ≤ v.toNat := by revert v; decide
@[simp] theorem coefSelOf_eq_none_iff : coefSelOf v = none ↔ 5 ≤ v.toNat := by revert v; decide
@[simp] theorem histSelOf_eq_none_iff : histSelOf v = none ↔ 4 ≤ v.toNat := by revert v; decide
@[simp] theorem sineSelOf_eq_none_iff : sineSelOf v = none ↔ 3 ≤ v.toNat := by revert v; decide

end

theorem eq_ofNat_of_toNat_eq {op : BitVec 8} {n : Nat} (h : op.toNat = n) : op = BitVec.ofNat 8 n := by
  rw [← h, BitVec.ofNat_toNat, BitVec.setWidth_eq]

@[simp] theorem ofNat_idxOf (c : Command) : BitVec.ofNat 16 (idxOf c) = idxField c := by
  rw [idxOf, BitVec.ofNat_toNat, BitVec.setWidth_eq]

@[simp] theorem ofNat_asU32 (w : Word) : BitVec.ofNat 32 (asU32 w) = w := by
  rw [asU32, BitVec.ofNat_toNat, BitVec.setWidth_eq]

@[simp] theorem fitsIdx_idxOf (c : Command) : fitsIdx (idxOf c) = true := decide_eq_true (idxField c).isLt

@[simp] theorem fitsU32_asU32 (w : Word) : fitsU32 (asU32 w) = true := decide_eq_true w.isLt

theorem idxOf_of_fits {c : Command} {i : Nat} (hw : fitsIdx i = true) (hi : idxField c = BitVec.ofNat 16 i) :
    idxOf c = i := by
  rw [idxOf, hi, BitVec.toNat_ofNat, Nat.mod_eq_of_lt (of_decide_eq_true hw)]

/-! ### The encodings of a command -/

/-- The commands that read `ARG`, R48's formats F, I, SF, SI and XI; the others ignore it (R45). -/
def Instr.readsArg (i : Instr) : Bool :=
  match i with
  | .clkInit _ | .clkSetFreq _ | .clkSetBpm _ | .clkSetMult _ | .seqInit _ _ | .pitchSetNote _ _
  | .pitchSetTranspose _ | .qSetKey _ | .qSetScale _ | .qQuantize _ | .qNoteToHz _ _ | .qNoteToName _
  | .oscSetFreq _ | .oscSetAmp _ | .oscSetMode _ | .filtSetFreq _ | .filtSetQ _ | .filtAddFreq _
  | .filtSetEnvDepth _ | .envSetAttack _ _ | .envSetDecay _ _ => true
  | _ => false

/-- `c` is an encoding of `i`: the words of `encode i`, but for an `ARG` that `i` ignores (R45). -/
structure Encodes (c : Command) (i : Instr) : Prop where
  wellFormed : i.wellFormed = true
  cmd : c.cmd = (encode i).cmd
  arg : i.readsArg = true → c.arg = (encode i).arg

theorem cmd_eq_iff_fields (c c' : Command) :
    c.cmd = c'.cmd ↔ opOf c = opOf c' ∧ selOf c = selOf c' ∧ idxField c = idxField c' := by
  rw [← cmd_inj]
  exact Eq.congr (congrArg Command.cmd (cmd_eq_packCommand c)).symm (congrArg Command.cmd (cmd_eq_packCommand c')).symm

/-- An encoding by its fields (R43). -/
theorem encodes_iff_fields (c : Command) (i : Instr) :
    Encodes c i ↔ i.wellFormed = true ∧
      (opOf c = opOf (encode i) ∧ selOf c = selOf (encode i) ∧ idxField c = idxField (encode i)) ∧
      (i.readsArg = true → c.arg = (encode i).arg) := by
  rw [← cmd_eq_iff_fields]
  exact ⟨fun ⟨hw, hc, ha⟩ => ⟨hw, hc, ha⟩, fun ⟨hw, hc, ha⟩ => ⟨hw, hc, ha⟩⟩

theorem Encodes.fields {c : Command} {i : Instr} {op sel : BitVec 8} {idx : BitVec 16} {a : Word} (h : Encodes c i)
    (he : encode i = packCommand op sel idx a) :
    opOf c = op ∧ selOf c = sel ∧ idxField c = idx ∧ (i.readsArg = true → c.arg = a) := by
  obtain ⟨-, ⟨hop, hsel, hidx⟩, harg⟩ := (encodes_iff_fields c i).1 h
  rw [he] at hop hsel hidx harg
  exact ⟨hop.trans (opOf_packCommand ..), hsel.trans (selOf_packCommand ..),
    hidx.trans (idxField_packCommand ..), harg⟩

theorem encodes_encode (i : Instr) (hw : i.wellFormed = true) : Encodes (encode i) i := ⟨hw, rfl, fun _ => rfl⟩

/-- Every encoding of a command decodes to it: the cases are the formats of R48. -/
theorem decode_of_encodes {c : Command} {i : Instr} (h : Encodes c i) : decode c = .ok i := by
  have hw := h.wellFormed
  unfold decode
  cases i with
  | nop | engGetId | engGetStatus | engGetErrCode | transportStart | transportStop | clkSetPhaseToEnd | clkGetFreq
  | clkGetMult | pitchGetTranspose | pitchGetCurrentFreq | pitchGetCurrentName | qGetKey | qGetScale | oscGetFreq
  | oscGetAmp | oscGetMode | oscGetPhase | filtGetFreq | filtGetQ | filtGetMod | filtGetEffFreq
  | filtGetEnvDepth =>
    obtain ⟨hop, hsel, hidx, -⟩ := h.fields rfl
    rw [hop]
    exact (formN_eq_ok_iff ..).2 ⟨hsel, hidx, rfl⟩
  | clkInit | clkSetFreq | clkSetBpm | oscSetFreq | oscSetAmp | oscSetMode | filtSetFreq | filtSetQ | filtAddFreq
  | filtSetEnvDepth =>
    obtain ⟨hop, hsel, hidx, harg⟩ := h.fields rfl
    rw [hop, harg rfl]
    exact (formN_eq_ok_iff ..).2 ⟨hsel, hidx, rfl⟩
  | clkSetMult n | pitchSetTranspose n | qSetKey n | qSetScale n | qQuantize n | qNoteToName n =>
    obtain ⟨hop, hsel, hidx, harg⟩ := h.fields rfl
    rw [hop, harg rfl, asI32_of_fits n hw]
    exact (formN_eq_ok_iff ..).2 ⟨hsel, hidx, rfl⟩
  | engGetOut u | clkGetPhase u | clkGetInc u | seqGetCurrent u | seqGetLength u | trigGetCurrentActive u
  | oscGetSineState u | filtGetCoef u | filtGetState u | envTrigger u | envGetAttack u | envGetDecay u
  | envGetOutput u | envGetStage u | envGetTimer u =>
    obtain ⟨hop, hsel, hidx, -⟩ := h.fields rfl
    rw [hop]
    exact (formS_eq_ok_iff ..).2 ⟨hidx, u, by simp [hsel], rfl⟩
  | envSetAttack u | envSetDecay u =>
    obtain ⟨hop, hsel, hidx, harg⟩ := h.fields rfl
    rw [hop, harg rfl]
    exact (formS_eq_ok_iff ..).2 ⟨hidx, u, by simp [hsel], rfl⟩
  | seqInit u n =>
    obtain ⟨hop, hsel, hidx, harg⟩ := h.fields rfl
    rw [hop, harg rfl, asU32_of_fits n hw]
    exact (formS_eq_ok_iff ..).2 ⟨hidx, u, by simp [hsel], rfl⟩
  | seqSetCurrent u | trigToggle u | trigGetStep u =>
    obtain ⟨hop, hsel, hidx, -⟩ := h.fields rfl
    rw [hop, idxOf_of_fits hw hidx]
    exact (formSX_eq_ok_iff ..).2 ⟨u, by simp [hsel], rfl⟩
  | pitchGetNote =>
    obtain ⟨hop, hsel, hidx, -⟩ := h.fields rfl
    rw [hop, idxOf_of_fits hw hidx]
    exact (formX_eq_ok_iff ..).2 ⟨hsel, rfl⟩
  | pitchSetNote idx n =>
    obtain ⟨hop, hsel, hidx, harg⟩ := h.fields rfl
    obtain ⟨hwidx, hwn⟩ := (Bool.and_eq_true _ _).mp hw
    rw [hop, idxOf_of_fits hwidx hidx, harg rfl, asI32_of_fits n hwn]
    exact (formX_eq_ok_iff ..).2 ⟨hsel, rfl⟩
  | qNoteToHz q n =>
    obtain ⟨hop, hsel, hidx, harg⟩ := h.fields rfl
    rw [hop, harg rfl, asI32_of_fits n hw]
    refine (formFlag_eq_ok_iff ..).2 ⟨hsel, ?_⟩
    rw [hidx]
    cases q with
    | false => exact ⟨rfl, rfl⟩
    | true => exact ⟨rfl, rfl⟩

/-- Settles O2: the words of `encode` are an encoding, and bytes in either order carry the words. -/
theorem decodeOfEncodeIsTheCommand : Obligations.DecodeOfEncodeIsTheCommand := by
  intro i hw
  have hd : decode (encode i) = .ok i := decode_of_encodes (encodes_encode i hw)
  refine ⟨hd, fun order => ?_⟩
  rw [decodeBytes, commandOfBytes_bytesOfCommand, Option.map_some, hd]

/-! ### The arms of the decoder -/

/-- The row of R48 with the opcode `op`, which asks the bits `m1` of `SEL` and `m2` of `IDX` to be zero. -/
def OpcodeRow.ofFields (op m1 : BitVec 8) (m2 : BitVec 16) (n : Nat) : OpcodeRow :=
  ⟨op ++ 0#8 ++ 0#16, 0xFF#8 ++ m1 ++ m2, n⟩

/-- The row of R48 for an opcode. -/
def rowOfOp (op : BitVec 8) : Option OpcodeRow := opcodeMap.find? fun r => r.pattern.extractLsb' 24 8 == op

theorem rowOf_eq_rowOfOp (c : Command) : rowOf c = rowOfOp (opOf c) := rfl

theorem rowOfOp_eq_none {op : BitVec 8}
    (h : op.toNat ∉ opcodeMap.map fun r => (r.pattern.extractLsb' 24 8).toNat) : rowOfOp op = none := by
  rw [rowOfOp, List.find?_eq_none]
  intro r hr hop
  exact h (List.mem_map.2 ⟨r, hr, congrArg BitVec.toNat (eq_of_beq hop)⟩)

/-- How `c` with the opcode `op` can decode, with the row of R48 for it: no row and no command, or one of the five
forms with the row of its masks, where the command that passes the form's checks is one that `c` encodes. -/
inductive DecodeArm (c : Command) (op : BitVec 8) : Option OpcodeRow → Decoded → Prop
  | undefined : DecodeArm c op none (.rejected .illegalOp)
  | formN {i : Instr} (hi : selOf c = 0 → idxField c = 0 → Encodes c i) :
      DecodeArm c op (some (.ofFields op 0xFF 0xFFFF 1)) (formN c i)
  | formS {σ : Type} {unitOf : BitVec 8 → Option σ} {mk : σ → Instr} {n : Nat}
      (hn : ∀ v, unitOf v = none ↔ n ≤ v.toNat)
      (hi : ∀ u, unitOf (selOf c) = some u → idxField c = 0 → Encodes c (mk u)) :
      DecodeArm c op (some (.ofFields op 0 0xFFFF n)) (formS c unitOf mk)
  | formSX {σ : Type} {unitOf : BitVec 8 → Option σ} {mk : σ → Instr} {n : Nat}
      (hn : ∀ v, unitOf v = none ↔ n ≤ v.toNat) (hi : ∀ u, unitOf (selOf c) = some u → Encodes c (mk u)) :
      DecodeArm c op (some (.ofFields op 0 0 n)) (formSX c unitOf mk)
  | formX {i : Instr} (hi : selOf c = 0 → Encodes c i) :
      DecodeArm c op (some (.ofFields op 0xFF 0 1)) (formX c i)
  | formFlag {mk : Bool → Instr}
      (hi : ∀ q : Bool, selOf c = 0 → idxField c = (if q then 1 else 0) → Encodes c (mk q)) :
      DecodeArm c op (some (.ofFields op 0xFF 0xFFFE 1)) (formFlag c mk)

/-- WHAT DECODING CAN DO: the arms of `decode` stand beside the rows of R48, opcode by opcode. The form of an arm names
the constructor, whose row is the one found for the opcode; what is left to show is that the command's fields are those
that `encode` writes. -/
theorem decode_arm (c : Command) : DecodeArm c (opOf c) (rowOf c) (decode c) := by
  rw [rowOf_eq_rowOfOp]
  unfold decode
  generalize hop : opOf c = op
  split
  case h_64 =>
    have hnone : rowOfOp op = none := by
      apply rowOfOp_eq_none
      simp only [opcodeMap, engineRows, clockRows, sequencerRows, quantizerRows, oscillatorRows, filterRows,
        envelopeRows, List.cons_append, List.nil_append, List.map_cons, List.map_nil, List.mem_cons, not_or,
        List.not_mem_nil, not_false_eq_true, and_true]
      and_intros <;> assumption
    rw [hnone]
    exact .undefined
  all_goals
    rename_i h
    obtain rfl := eq_ofNat_of_toNat_eq h
    constructor
    all_goals
      simp +contextual [encodes_iff_fields, encode, hop, opOf_packCommand, selOf_packCommand, idxField_packCommand,
        Instr.wellFormed, Instr.readsArg, fitsI32_asI32]

/-- What decodes to a command encodes it. -/
theorem DecodeArm.encodes {c : Command} {op : BitVec 8} {row : Option OpcodeRow} {d : Decoded} {i : Instr}
    (h : DecodeArm c op row d) (hd : d = .ok i) : Encodes c i := by
  cases h with
  | undefined => exact absurd hd (by simp)
  | formN hi =>
    obtain ⟨hsel, hidx, rfl⟩ := (formN_eq_ok_iff ..).1 hd
    exact hi hsel hidx
  | formS _ hi =>
    obtain ⟨hidx, u, hu, rfl⟩ := (formS_eq_ok_iff ..).1 hd
    exact hi u hu hidx
  | formSX _ hi =>
    obtain ⟨u, hu, rfl⟩ := (formSX_eq_ok_iff ..).1 hd
    exact hi u hu
  | formX hi =>
    obtain ⟨hsel, rfl⟩ := (formX_eq_ok_iff ..).1 hd
    exact hi hsel
  | formFlag hi =>
    obtain ⟨hsel, hidx, rfl⟩ := (formFlag_eq_ok_iff ..).1 hd
    exact hi _ hsel (flag_of_idxField _ hidx)

/-- Decoding and encoding agree: what decodes to a command is exactly what encodes it. -/
theorem decode_eq_ok_iff (c : Command) (i : Instr) : decode c = .ok i ↔ Encodes c i :=
  ⟨(decode_arm c).encodes, decode_of_encodes⟩

/-- Settles O3: a command with the same `CMD` is an encoding too when the `ARG` is not read. -/
theorem encodeOfDecodeIsTheWord : Obligations.EncodeOfDecodeIsTheWord := by
  intro c i hd
  obtain ⟨hw, hcmd, harg⟩ := (decode_eq_ok_iff c i).1 hd
  refine ⟨hw, hcmd.symm, ?_⟩
  cases hr : i.readsArg with
  | true => exact .inl (harg hr).symm
  | false =>
    refine .inr fun a => decode_of_encodes ⟨hw, hcmd, fun h => ?_⟩
    exact absurd (hr.symm.trans h) Bool.false_ne_true

/-! ### The order of the checks -/

/-- `d` is what the checks of R47 steps 1 to 3 give for `c` by its row `r`: the first one that fails decides. -/
def FollowsRow (c : Command) (r : OpcodeRow) (d : Decoded) : Prop :=
  if c.cmd &&& r.mask ≠ r.pattern then d = .rejected .reserved
  else if r.selLimit ≤ (selOf c).toNat then d = .rejected .badSel
  else ∃ i : Instr, d = .ok i

/-- A form follows its row when it makes the checks of the row's mask on `SEL` and `IDX`, then that of the selector. -/
theorem followsRow_of_checks {c : Command} {m1 : BitVec 8} {m2 : BitVec 16} {n : Nat} {d : Decoded}
    (hres : selOf c &&& m1 ≠ 0#8 ∨ idxField c &&& m2 ≠ 0#16 → d = .rejected .reserved)
    (hbad : selOf c &&& m1 = 0#8 → idxField c &&& m2 = 0#16 → n ≤ (selOf c).toNat → d = .rejected .badSel)
    (hok : selOf c &&& m1 = 0#8 → idxField c &&& m2 = 0#16 → (selOf c).toNat < n → ∃ i, d = .ok i) :
    FollowsRow c (.ofFields (opOf c) m1 m2 n) d := by
  have hop : opOf c &&& 0xFF#8 = opOf c := BitVec.and_allOnes
  have hmask := cmd_and_eq_iff c (opOf c) 0xFF#8 m1 m2
  unfold FollowsRow OpcodeRow.ofFields
  split_ifs with h1 h2
  · apply hres
    by_contra! h
    exact h1 (hmask.2 ⟨hop, h⟩)
  · obtain ⟨-, hsel, hidx⟩ := hmask.1 (not_not.1 h1)
    exact hbad hsel hidx h2
  · obtain ⟨-, hsel, hidx⟩ := hmask.1 (not_not.1 h1)
    exact hok hsel hidx (not_le.1 h2)

theorem and_0xFF (v : BitVec 8) : v &&& 0xFF = v := BitVec.and_allOnes

theorem and_0xFFFF (v : BitVec 16) : v &&& 0xFFFF = v := BitVec.and_allOnes

/-- The mask of Q_NOTE_TO_HZ leaves out the flag in bit 0 (R90). -/
theorem and_0xFFFE_eq_zero_iff (v : BitVec 16) : v &&& 0xFFFE = 0 ↔ v.extractLsb' 1 15 = 0 := by
  constructor
  · intro h
    have hbits : (v &&& 0xFFFE).extractLsb' 1 15 = v.extractLsb' 1 15 :=
      BitVec.extractLsb'_and.trans BitVec.and_allOnes
    rw [← hbits, h]
    rfl
  · intro h
    rw [flag_of_idxField v h]
    cases v.getLsbD 0 with
    | false => rfl
    | true => rfl

/-- A form that does not use `SEL` has the selector 0, below the limit 1 (R48). -/
theorem selOf_lt_one {c : Command} (h : selOf c = 0) : ¬ 1 ≤ (selOf c).toNat := by
  rw [h]
  decide

theorem formN_followsRow (c : Command) (i : Instr) :
    FollowsRow c (.ofFields (opOf c) 0xFF 0xFFFF 1) (formN c i) := by
  apply followsRow_of_checks <;> rw [and_0xFF, and_0xFFFF]
  · exact fun hres => if_pos hres
  · exact fun hsel _ hbad => absurd hbad (selOf_lt_one hsel)
  · exact fun hsel hidx _ => ⟨i, (formN_eq_ok_iff ..).2 ⟨hsel, hidx, rfl⟩⟩

theorem formX_followsRow (c : Command) (i : Instr) :
    FollowsRow c (.ofFields (opOf c) 0xFF 0 1) (formX c i) := by
  apply followsRow_of_checks <;> rw [and_0xFF]
  · exact fun hres => if_pos (hres.resolve_right (not_not.2 BitVec.and_zero))
  · exact fun hsel _ hbad => absurd hbad (selOf_lt_one hsel)
  · exact fun hsel _ _ => ⟨i, (formX_eq_ok_iff ..).2 ⟨hsel, rfl⟩⟩

theorem formFlag_followsRow (c : Command) (mk : Bool → Instr) :
    FollowsRow c (.ofFields (opOf c) 0xFF 0xFFFE 1) (formFlag c mk) := by
  apply followsRow_of_checks <;> simp only [and_0xFF, ne_eq]
  · exact fun hres => if_pos (hres.imp_right (mt (and_0xFFFE_eq_zero_iff _).2))
  · exact fun hsel _ hbad => absurd hbad (selOf_lt_one hsel)
  · exact fun hsel hidx _ => ⟨_, (formFlag_eq_ok_iff ..).2 ⟨hsel, (and_0xFFFE_eq_zero_iff _).1 hidx, rfl⟩⟩

section
variable {σ : Type} {unitOf : BitVec 8 → Option σ} {n : Nat} (hn : ∀ v, unitOf v = none ↔ n ≤ v.toNat)
include hn

/-- A selector below the limit names a unit. -/
theorem exists_unit_of_lt {v : BitVec 8} (h : v.toNat < n) : ∃ u, unitOf v = some u :=
  Option.ne_none_iff_exists'.1 fun hnone => absurd ((hn v).1 hnone) (not_le.2 h)

theorem formSX_followsRow (c : Command) (mk : σ → Instr) :
    FollowsRow c (.ofFields (opOf c) 0 0 n) (formSX c unitOf mk) := by
  apply followsRow_of_checks
  · exact fun hres => absurd hres (by simp)
  · intro _ _ hbad
    rw [formSX, (hn _).2 hbad]
  · intro _ _ hlt
    obtain ⟨u, hu⟩ := exists_unit_of_lt hn hlt
    exact ⟨mk u, (formSX_eq_ok_iff ..).2 ⟨u, hu, rfl⟩⟩

theorem formS_followsRow (c : Command) (mk : σ → Instr) :
    FollowsRow c (.ofFields (opOf c) 0 0xFFFF n) (formS c unitOf mk) := by
  apply followsRow_of_checks <;> rw [and_0xFFFF]
  · exact fun hres => if_pos (hres.resolve_left (not_not.2 BitVec.and_zero))
  · intro _ hidx hbad
    rw [formS, if_neg (show ¬ idxField c ≠ 0 from not_not.2 hidx), (hn _).2 hbad]
  · intro _ hidx hlt
    obtain ⟨u, hu⟩ := exists_unit_of_lt hn hlt
    exact ⟨mk u, (formS_eq_ok_iff ..).2 ⟨hidx, u, hu, rfl⟩⟩

end

/-- Settles O4: the arm beside each row makes the row's checks in R47's order. -/
theorem decodeFollowsTheOpcodeMap : Obligations.DecodeFollowsTheOpcodeMap := by
  intro c
  have harm := decode_arm c
  generalize rowOf c = row at harm ⊢
  generalize decode c = d at harm ⊢
  cases harm with
  | undefined => rfl
  | formN => exact formN_followsRow c _
  | formS hn => exact formS_followsRow hn c _
  | formSX hn => exact formSX_followsRow hn c _
  | formX => exact formX_followsRow c _
  | formFlag => exact formFlag_followsRow c _

/-- Settles O1, by running the decoder on the words. -/
theorem commandWordsDecode : Obligations.CommandWordsDecode := by
  unfold Obligations.CommandWordsDecode
  decide

/-- Decoding rejects with the error of one of its three steps (R47). -/
theorem decode_rejected {c : Command} {e : ErrCode} (h : decode c = .rejected e) :
    e = .illegalOp ∨ e = .reserved ∨ e = .badSel := by
  have hmap := decodeFollowsTheOpcodeMap c
  rw [h] at hmap
  split at hmap
  · exact .inl (Decoded.rejected.inj hmap)
  · split_ifs at hmap
    · exact .inr (.inl (Decoded.rejected.inj hmap))
    · exact .inr (.inr (Decoded.rejected.inj hmap))
    · obtain ⟨i, hi⟩ := hmap
      exact absurd hi (by simp)

theorem applyCommand_of_rejected {cfg : Config} (run : Instr → State cfg → Result cfg) (c : Command) (e : ErrCode)
    (s : State cfg) (hd : decode c = .rejected e) : applyCommand run c s = .next (s.reject e) := by
  unfold applyCommand
  rw [hd]

/-- Settles O6: the error is one of the three decoding steps', and rejection writes its number. -/
theorem stepRejectsAnUndecodableCommand : Obligations.StepRejectsAnUndecodableCommand := by
  intro s c rest e hi hd
  refine ⟨errNumber e, ?_, ?_⟩
  · obtain rfl | rfl | rfl := decode_rejected hd <;> decide
  · calc step s = stepIn s := (stepIn_reference s).symm
      _ = applyCommand execIn c (s.setInputs rest) := stepIn_of_cons s _ rest hi
      _ = .next ((s.setInputs rest).reject e) := applyCommand_of_rejected execIn c e _ hd
      _ = .next ((s.setInputs rest).rejectedWith (errNumber e)) := congrArg _ (State.reject_eq_rejectedWith _ e)

end Sys2Proof
end

section
/-! PROOFS. The clock (R54 to R65): the stored increment is the exact rational rounded once and clamped
(`isClockInc_clkIncOf`); between two ticks the phase is the first one's remainder plus a whole number of
increments (`toNat_phase_iterate`), so the next tick comes where that sum first reaches PERIOD. -/

namespace Sys2Proof.Machine

open Sys2Proof

/-! ### The frequencies a clock takes -/

theorem value_pos_iff_key (f : F32) : 0 < f.value ↔ 0 < f.key := by
  rw [F32.value_eq, mul_pos_iff_of_pos_right (by positivity), Int.cast_pos, F32.units_pos_iff]

/-- R56: a positive frequency passes the test. -/
theorem badClockFreq_of_isClockFreq {f : F32} (h : IsClockFreq f) : badClockFreq f = false := by
  rw [badClockFreq_eq_false_iff]
  rcases h with hinf | ⟨hfin, hpos⟩
  · obtain rfl : f = ⟨0x7F800000⟩ := congrArg F32.mk hinf
    decide
  · exact ⟨f.isNaN_of_finite hfin, (value_pos_iff_key f).1 hpos⟩

/-- R56, R148: a NaN, -inf and a finite value that is not above 0 fail it. -/
theorem badClockFreq_of_nonPositive {f : F32}
    (h : f.isNaN = true ∨ f.bits = 0xFF800000 ∨ (f.isFinite = true ∧ f.value ≤ 0)) : badClockFreq f = true := by
  rw [← Bool.not_eq_false, badClockFreq_eq_false_iff]
  rintro ⟨hnan, hkey⟩
  rcases h with h | h | ⟨-, hle⟩
  · simp [hnan] at h
  · obtain rfl : f = ⟨0xFF800000⟩ := congrArg F32.mk h
    exact absurd hkey (by decide)
  · exact absurd ((value_pos_iff_key f).2 hkey) hle.not_gt

/-! ### The increment -/

/-- `roundNE` is `round_ne` of the quotient (R6). -/
theorem isNearestEven_roundNE (n d : Nat) (hd : 0 < d) : IsNearestEven ((n : ℚ) / d) (roundNE n d : ℤ) := by
  have hdq : (0 : ℚ) < d := by exact_mod_cast hd
  have hbelow := le_roundNE_iff n d (roundNE n d) hd
  have habove := le_roundNE_iff n d (roundNE n d + 1) hd (Nat.le_add_left _ _)
  generalize roundNE n d = j at *
  have hupper : 2 * ((n : ℚ) / d) ≤ 2 * j + 1 ∧ (2 * ((n : ℚ) / d) = 2 * j + 1 → Even j) := by
    rw [mul_div_assoc', div_le_iff₀ hdq, div_eq_iff hdq.ne', Nat.even_iff]
    norm_cast
    rw [show 2 * (j + 1) - 1 = 2 * j + 1 by omega] at habove
    omega
  have hlower : 2 * (j : ℚ) - 1 ≤ 2 * (n / d) ∧ (2 * (j : ℚ) - 1 = 2 * (n / d) → Even j) := by
    rcases Nat.eq_zero_or_pos j with rfl | hj
    · have : (0 : ℚ) ≤ n / d := by positivity
      exact ⟨by push_cast; linarith, fun _ => Even.zero⟩
    · have hmid := (hbelow hj).1 le_rfl
      rw [mul_div_assoc', le_div_iff₀ hdq, eq_div_iff hdq.ne', Nat.even_iff,
        show 2 * (j : ℚ) - 1 = ((2 * j - 1 : ℕ) : ℚ) by rw [Nat.cast_sub (by omega)]; push_cast; rfl]
      norm_cast
      omega
  rw [IsNearestEven, Int.cast_natCast, Int.even_coe_nat, abs_le]
  refine ⟨⟨by linarith, by linarith⟩, fun htie => ?_⟩
  rcases abs_cases ((n : ℚ) / d - j) with ⟨h, -⟩ | ⟨h, -⟩
  · exact hupper.2 (by linarith)
  · exact hlower.2 (by linarith)

/-- The clamp of R54 fits the register. -/
theorem toNat_clkIncOf (cfg : Config) (f : F32) (idx : BitVec 8) : (clkIncOf cfg f idx).toNat =
    min cfg.PERIOD (max 1 (if f.isFinite then clkIncExact cfg f idx else cfg.PERIOD)) := by
  have hfit : cfg.PERIOD < 2 ^ (cfg.PHASE_BITS + 1) := Nat.pow_lt_pow_right (by omega) (by omega)
  exact (BitVec.toNat_ofNat _ _).trans (Nat.mod_eq_of_lt ((min_le_left _ _).trans_lt hfit))

/-- An index of the table reads its row (R18). -/
theorem referenceMultipliers_getElem? {idx : BitVec 8} (h : idx.toNat < 9) :
    referenceMultipliers[idx.toNat]? = some (multiplier Config.reference idx) := by
  unfold multiplier
  rw [reference_MULT_TABLE, List.getElem?_eq_getElem h, Option.getD_some]

/-- R54 before its clamp, of a positive finite frequency. -/
theorem isNearestEven_clkIncExact {f : F32} (hpos : 0 < f.value) {idx : BitVec 8} {num den : Nat}
    (hm : multiplier Config.reference idx = (num, den)) (hden : 0 < den) :
    IsNearestEven ((2 ^ 48 : ℚ) * f.value * num / (den * 48000)) (clkIncExact Config.reference f idx : ℤ) := by
  have hunits : 0 < f.units := (F32.units_pos_iff f).2 ((value_pos_iff_key f).1 hpos)
  have hcast : ((f.units.toNat : ℕ) : ℚ) = f.units := by exact_mod_cast Int.toNat_of_nonneg hunits.le
  have hdq : (den : ℚ) ≠ 0 := by exact_mod_cast hden.ne'
  have h := isNearestEven_roundNE (2 ^ 48 * f.units.toNat * num) (2 ^ 149 * (den * 48000)) (by positivity)
  have hratio : (2 ^ 48 : ℚ) * f.value * num / (den * 48000) =
      ((2 ^ 48 * f.units.toNat * num : ℕ) : ℚ) / (2 ^ 149 * (den * 48000) : ℕ) := by
    rw [F32.value_eq, zpow_neg, zpow_ofNat]
    push_cast
    rw [hcast]
    field_simp
    ring
  rw [hratio, clkIncExact, hm]
  exact h

/-- CLK_INC_CALC stores the increment of R54. -/
theorem isClockInc_clkIncOf {f : F32} (hf : IsClockFreq f) {idx : BitVec 8} (hidx : idx.toNat < 9) :
    IsClockInc f idx.toNat (clkIncOf Config.reference f idx).toNat := by
  have hrow := referenceMultipliers_getElem? hidx
  unfold IsClockInc
  rw [toNat_clkIncOf]
  split
  · rename_i hinf
    obtain rfl : f = ⟨0x7F800000⟩ := congrArg F32.mk hinf
    rw [if_neg (by decide)]
    decide
  · rename_i hinf
    obtain ⟨hfin, hpos⟩ := hf.resolve_left hinf
    obtain ⟨-, hden⟩ := reference_legal.multipliers.2 _ (List.mem_of_getElem? hrow)
    refine ⟨_, _, _, hrow, isNearestEven_clkIncExact hpos rfl hden, ?_⟩
    rw [if_pos hfin]
    push_cast
    rfl

/-! ### The clock's commands -/

theorem exec_clkInit_of_good (s : State) {f : F32} (h : badClockFreq f = false) :
    exec (.clkInit f) s = .next (State.answeredWith
      { s with clk := { freq := f, multIdx := 4, phase := 0, inc := clkIncOf Config.reference f 4 } } 0) :=
  if_neg (by simp [h])

theorem exec_clkSetFreq_of_good (s : State) {f : F32} (h : badClockFreq f = false) :
    exec (.clkSetFreq f) s = .next (State.answeredWith
      { s with clk := { s.clk with freq := f, inc := clkIncOf Config.reference f s.clk.multIdx } } 0) :=
  if_neg (by simp [h])

theorem exec_clkInit_of_bad (s : State) {f : F32} (h : badClockFreq f = true) :
    exec (.clkInit f) s = .next (s.rejectedWith 7) := if_pos h

theorem exec_clkSetFreq_of_bad (s : State) {f : F32} (h : badClockFreq f = true) :
    exec (.clkSetFreq f) s = .next (s.rejectedWith 7) := if_pos h

/-- CLK_SET_BPM is CLK_SET_FREQ of the quotient (R58). -/
theorem exec_clkSetBpm (bpm : F32) (s : State) :
    exec (.clkSetBpm bpm) s = exec (.clkSetFreq (bpm.div (F32.ofInt 60))) s := rfl

/-- Settles O21: the test passes, and the increment CLK_INC_CALC stores is R54's. -/
theorem clockFrequencyCommandsStoreAndRecompute : Obligations.ClockFrequencyCommandsStoreAndRecompute := by
  intro s f hf
  have hgood := badClockFreq_of_isClockFreq hf
  refine ⟨⟨_, isClockInc_clkIncOf hf (idx := 4) (by decide), exec_clkInit_of_good s hgood⟩, fun hidx =>
    ⟨_, isClockInc_clkIncOf hf hidx, exec_clkSetFreq_of_good s hgood, ?_⟩⟩
  rintro bpm rfl
  rw [exec_clkSetBpm, exec_clkSetFreq_of_good s hgood]

/-- Settles O22: the test fails in each of the three commands. -/
theorem nonPositiveClockFrequencyIsRejected : Obligations.NonPositiveClockFrequencyIsRejected := by
  intro s f hf
  have hbad := badClockFreq_of_nonPositive hf
  refine ⟨exec_clkInit_of_bad s hbad, exec_clkSetFreq_of_bad s hbad, ?_⟩
  rintro bpm rfl
  rw [exec_clkSetBpm, exec_clkSetFreq_of_bad s hbad]

theorem clampInt_eq_max_min (v lo hi : Int) (h : lo ≤ hi) : clampInt v lo hi = max lo (min v hi) := by
  unfold clampInt
  split
  · omega
  · split <;> omega

/-- What an unsigned register holds of an operand clamped to `0 .. hi`. -/
theorem toNat_ofInt_clampInt_eq (w : Nat) (k hi : Int) (h0 : 0 ≤ hi) (h : hi < 2 ^ w) :
    ((BitVec.ofInt w (clampInt k 0 hi)).toNat : Int) = max 0 (min k hi) := by
  obtain ⟨hlo, hhi⟩ := clampInt_range k 0 hi h0
  rw [BitVec.toNat_ofInt, Int.emod_eq_of_lt hlo (by push_cast; omega), Int.toNat_of_nonneg hlo,
    clampInt_eq_max_min k 0 hi h0]

theorem exec_clkSetMult (k : Int) (s : State) :
    exec (.clkSetMult k) s = .next (State.answeredWith
      { s with clk := { s.clk with
        multIdx := BitVec.ofInt 8 (clampInt k 0 8)
        inc := clkIncOf Config.reference s.clk.freq (BitVec.ofInt 8 (clampInt k 0 8)) } } 0) := rfl

/-- Settles O23: the clamped index is one of the table's nine. -/
theorem clockMultiplierIndexIsClamped : Obligations.ClockMultiplierIndexIsClamped := by
  intro s k hf
  have hidx := toNat_ofInt_clampInt_eq 8 k 8 (by norm_num) (by norm_num)
  exact ⟨_, _, hidx, isClockInc_clkIncOf hf (by omega), exec_clkSetMult k s⟩

theorem exec_clkSetPhaseToEnd (s : State) : exec .clkSetPhaseToEnd s = .next (State.answeredWith
    { s with clk := { s.clk with phase := (clkPhaseToEnd s.clk).phase } } 0) := rfl

/-- Settles O24: an increment of a whole turn leaves phase 0, and the first alternative says that too. -/
theorem phaseToEndLeavesOneIncrement : Obligations.PhaseToEndLeavesOneIncrement := by
  intro s h1 h2
  have hphase := toNat_phase_clkPhaseToEnd s.clk h1 h2
  refine ⟨_, .inl hphase, ?_, exec_clkSetPhaseToEnd s⟩
  rw [hphase, Nat.sub_add_cancel h2, Nat.mod_self]

/-! ### The clock of a playing sample step -/

/-- Settles O25: the sample step's clock is CLK_PROCESS's. -/
theorem playingSampleAdvancesTheClock : Obligations.PlayingSampleAdvancesTheClock := by
  intro s hplay _
  rw [sampleStep_clk s hplay, sampleStep_lastTick s hplay]
  exact ⟨toNat_phase_clkProcess s.clk, clkTicks_iff s.clk, rfl⟩

/-- One increment before the end, the next CLK_PROCESS ticks and leaves phase 0 (R55, R60). -/
theorem clkProcess_clkPhaseToEnd (c : Clock) (h1 : 1 ≤ c.inc.toNat) (h2 : c.inc.toNat ≤ 2 ^ 48) :
    clkTicks (clkPhaseToEnd c) = true ∧ (clkProcess (clkPhaseToEnd c)).phase = 0 := by
  have hsum : (clkPhaseToEnd c).phase.toNat + (clkPhaseToEnd c).inc.toNat = 2 ^ 48 := by
    rw [toNat_phase_clkPhaseToEnd c h1 h2, clkPhaseToEnd_inc, Nat.sub_add_cancel h2]
  refine ⟨(clkTicks_iff _).2 hsum.ge, BitVec.eq_of_toNat_eq ?_⟩
  rw [toNat_phase_clkProcess, hsum]
  rfl

/-- Both commands leave a playing state one increment before the end (R60, R137). -/
theorem play_and_clk_of_phaseToEnd_or_start {s t : State}
    (h : (exec .clkSetPhaseToEnd s = .next t ∧ s.eng.play = true) ∨ exec .transportStart s = .next t) :
    t.eng.play = true ∧ t.clk = clkPhaseToEnd s.clk := by
  rcases h with ⟨h, hplay⟩ | h
  · cases h
    exact ⟨hplay, rfl⟩
  · cases h
    exact ⟨rfl, rfl⟩

/-- Settles O26: the step's clock is CLK_PROCESS of one that stands one increment before the end. -/
theorem sampleRightAfterPhaseToEndTicks : Obligations.SampleRightAfterPhaseToEndTicks := by
  intro s t h1 h2 h
  obtain ⟨hplay, hclk⟩ := play_and_clk_of_phaseToEnd_or_start h
  rw [sampleStep_lastTick t hplay, sampleStep_clk t hplay, hclk]
  exact clkProcess_clkPhaseToEnd s.clk h1 h2

/-! ### The spacing of ticks -/

theorem play_iterate (s : State) (h : s.eng.play = true) (m : Nat) : (sampleStep^[m] s).eng.play = true := by
  induction m with
  | zero => exact h
  | succ m ih => rw [Function.iterate_succ_apply', sampleStep_play, ih]

theorem inc_iterate (s : State) (h : s.eng.play = true) (m : Nat) : (sampleStep^[m] s).clk.inc = s.clk.inc := by
  induction m with
  | zero => rfl
  | succ m ih => rw [Function.iterate_succ_apply', sampleStep_clk _ (play_iterate s h m), clkProcess_inc, ih]

/-- After `m` playing sample steps the phase has advanced by `m` increments modulo PERIOD (R55). -/
theorem toNat_phase_iterate (s : State) (h : s.eng.play = true) (m : Nat) :
    (sampleStep^[m] s).clk.phase.toNat = (s.clk.phase.toNat + m * s.clk.inc.toNat) % 2 ^ 48 := by
  induction m with
  | zero => simpa using (Nat.mod_eq_of_lt s.clk.phase.isLt).symm
  | succ m ih =>
    rw [Function.iterate_succ_apply', sampleStep_clk _ (play_iterate s h m), toNat_phase_clkProcess, ih,
      inc_iterate s h m, Nat.mod_add_mod, Nat.succ_mul, Nat.add_assoc]

/-- Until the sum of the increments reaches PERIOD, the sample step that adds one more ticks exactly when the sum
reaches it then. -/
theorem lastTick_iterate_succ (s : State) (h : s.eng.play = true) (m : Nat)
    (hm : s.clk.phase.toNat + m * s.clk.inc.toNat < 2 ^ 48) :
    (sampleStep^[m + 1] s).eng.lastTick = true ↔ 2 ^ 48 ≤ s.clk.phase.toNat + (m + 1) * s.clk.inc.toNat := by
  rw [Function.iterate_succ_apply', sampleStep_lastTick _ (play_iterate s h m), clkTicks_iff,
    toNat_phase_iterate s h m, inc_iterate s h m, Nat.mod_eq_of_lt hm, Nat.succ_mul, Nat.add_assoc]

/-- After a tick the phase is what the sum went beyond PERIOD, less than one increment. -/
theorem phase_lt_inc_of_tick (s : State) (h : s.eng.play = true) (hinc : s.clk.inc.toNat ≤ 2 ^ 48)
    (htick : (sampleStep s).eng.lastTick = true) :
    (sampleStep s).clk.phase.toNat < (sampleStep s).clk.inc.toNat := by
  have hlt : s.clk.phase.toNat < 2 ^ 48 := s.clk.phase.isLt
  rw [sampleStep_lastTick s h, clkTicks_iff] at htick
  rw [sampleStep_clk s h, toNat_phase_clkProcess, clkProcess_inc]
  omega

/-- From `p` below one step `a`, the sum `p + n * a` first reaches `P` at the floor or at the ceiling of `P / a`,
as `p` makes up for the remainder of `P` or not. -/
theorem exists_first_sum_ge (P p a : Nat) (ha : 1 ≤ a) (haP : a ≤ P) (hp : p < a) :
    ∃ n, (n = P / a ∨ n = (P + a - 1) / a) ∧ 1 ≤ n ∧ P ≤ p + n * a ∧ p + (n - 1) * a < P := by
  have hdiv : P / a * a + P % a = P := Nat.div_add_mod' P a
  have hmod : P % a < a := Nat.mod_lt _ ha
  have hq : 1 ≤ P / a := Nat.div_pos haP ha
  rcases Nat.lt_or_ge p (P % a) with hrem | hrem
  · have hceil : (P + a - 1) / a = P / a + 1 := by
      rw [Nat.div_eq_iff (by omega), Nat.succ_mul]
      omega
    refine ⟨P / a + 1, .inr hceil.symm, by omega, ?_, ?_⟩
    · rw [Nat.succ_mul]
      omega
    · rw [Nat.add_sub_cancel]
      omega
  · refine ⟨P / a, .inl rfl, hq, by omega, ?_⟩
    rw [Nat.sub_mul, Nat.one_mul]
    have : a ≤ P / a * a := Nat.le_mul_of_pos_left a hq
    omega

/-- Settles O27: after a tick the phase is below one increment, and the next tick is where the sum of the increments
first reaches PERIOD. -/
theorem ticksAreSpacedByThePeriodOverTheIncrement : Obligations.TicksAreSpacedByThePeriodOverTheIncrement := by
  intro r hplay h1 h2 htick
  have hplay' : (sampleStep r).eng.play = true := by rw [sampleStep_play, hplay]
  have hinc : (sampleStep r).clk.inc = r.clk.inc := inc_iterate r hplay 1
  have hphase := phase_lt_inc_of_tick r hplay h2 htick
  rw [← hinc] at h1 h2 ⊢
  generalize sampleStep r = s at *
  obtain ⟨n, hn, hn1, hreach, hbefore⟩ := exists_first_sum_ge (2 ^ 48) _ _ h1 h2 hphase
  have hbelow : ∀ m, m < n → s.clk.phase.toNat + m * s.clk.inc.toNat < 2 ^ 48 := fun m hm =>
    (Nat.add_le_add_left (Nat.mul_le_mul_right _ (by omega)) _).trans_lt hbefore
  refine ⟨n, hn, hn1, ?_, fun m hm1 hmn => ?_⟩
  · obtain ⟨m, rfl⟩ := Nat.exists_eq_add_of_le' hn1
    exact (lastTick_iterate_succ s hplay' m (hbelow m (by omega))).2 hreach
  · obtain ⟨m, rfl⟩ := Nat.exists_eq_add_of_le' hm1
    rw [← Bool.not_eq_true, lastTick_iterate_succ s hplay' m (hbelow m (by omega)), not_le]
    exact hbelow (m + 1) hmn

/-! ### The queries -/

/-- The two halves of a register of at most 64 bits make it up (R63, R64). -/
theorem halfOf_join (v : Nat) (h : v < 2 ^ 64) :
    (halfOf .hi v).toNat * 2 ^ 32 + (halfOf .lo v).toNat = v := by
  simp only [halfOf, BitVec.toNat_ofNat]
  omega

/-- Settles O28: each query's answer is its register, and the halves join to the whole. -/
theorem clockQueriesReadTheirRegisters : Obligations.ClockQueriesReadTheirRegisters := by
  intro s
  refine ⟨rfl, rfl, ⟨_, toNat_zext32 s.clk.multIdx (by norm_num), rfl⟩, rfl, ?_, ?_⟩
  · exact ⟨_, _, halfOf_join s.clk.phase.toNat (s.clk.phase.isLt.trans_le (by norm_num)), rfl, rfl⟩
  · exact ⟨_, _, halfOf_join s.clk.inc.toNat (s.clk.inc.isLt.trans_le (by norm_num)), rfl, rfl⟩

end Sys2Proof.Machine
end

section
/-! PROOFS. The sequencers (R66 to R81): each command is one checked write of one track, and a playing sample step
moves the playheads by its tick and by the step that TRIG1 reaches on it (`sampleResets`). -/

namespace Sys2Proof.Machine

open Sys2Proof

variable {cfg : Config}

/-! ### The checks of the operands -/

theorem badIndex_of_le {len : BitVec 17} {i : Nat} (h : len.toNat ≤ i) : badIndex i len = true := decide_eq_true h

theorem not_badIndex_of_lt {len : BitVec 17} {i : Nat} (h : i < len.toNat) : ¬badIndex i len = true := by
  simpa [badIndex] using h

theorem not_badNote {n : Int} (h0 : 0 ≤ n) (h127 : n ≤ 127) : ¬badNote Config.reference n = true := by
  simp [(badNote_eq_false_iff n).2 ⟨h0, h127⟩]

/-- A step index below a length of at most 64 fits the playhead. -/
theorem toNat_playhead {len : BitVec 17} {i : Nat} (hi : i < len.toNat) (hlen : len.toNat ≤ 64) :
    (BitVec.ofNat 16 i).toNat = i :=
  (BitVec.toNat_ofNat i 16).trans (Nat.mod_eq_of_lt (by omega))

/-! ### SEQ_INIT -/

/-- A length of SEQ_INIT fits its register. -/
theorem toNat_length {n : Nat} (h : n ≤ 64) : (BitVec.ofNat 17 n).toNat = n :=
  (BitVec.toNat_ofNat n 17).trans (Nat.mod_eq_of_lt (by omega))

/-- Every step of the pitch sequencer holds the quantized default note after SEQ_INIT (R68). -/
theorem noteAt_initPitch (q : Quantizer) (n : Nat) (k : PitchTrack) (i : Nat) (hi : i < 64) :
    (initPitch q n k).noteAt i = quantize q 60 := by
  have hq := quantize_range q 60
  unfold PitchTrack.noteAt initPitch
  rw [reference_DEFAULT_NOTE, Vector.getElem?_eq_getElem hi, Vector.getElem_replicate, Option.getD_some]
  exact BitVec.toInt_ofInt_eq_self (by omega) (by omega) (by omega)

theorem exec_seqInit_of_bad (s : State) (q : SeqSel) {n : Nat} (h : n < 1 ∨ 64 < n) :
    exec (.seqInit q n) s = .next (s.rejectedWith 6) := if_pos h

/-- Settles O29: the cleared track is `initTrig`'s or `initPitch`'s. -/
theorem sequencerInitClearsTheWholePattern : Obligations.SequencerInitClearsTheWholePattern := by
  refine fun s n => ⟨fun h1 h64 => ?_, fun h q => exec_seqInit_of_bad s q h⟩
  have hlen := toNat_length h64
  have hgood : ¬(n < 1 ∨ 64 < n) := by omega
  constructor
  · exact ⟨initTrig n s.trig0, hlen, rfl, fun i _ => initTrig_stepActive n s.trig0 i, if_neg hgood, if_neg hgood⟩
  · exact ⟨initPitch s.quant n s.pitch, hlen, rfl, rfl, noteAt_initPitch s.quant n s.pitch, if_neg hgood⟩

/-! ### SEQ_SET_CURRENT -/

theorem exec_seqSetCurrent_of_lt (s : State) {q : SeqSel} {i : Nat} (h : i < (s.seqLen q).toNat) :
    exec (.seqSetCurrent q i) s = .next ((s.setCur q i).answeredWith 0) := if_neg (not_badIndex_of_lt h)

theorem exec_seqSetCurrent_of_le (s : State) {q : SeqSel} {i : Nat} (h : (s.seqLen q).toNat ≤ i) :
    exec (.seqSetCurrent q i) s = .next (s.rejectedWith 4) := if_pos (badIndex_of_le h)

/-- Settles O30: `setCur` writes the playhead of the track that the selector names. -/
theorem setCurrentMovesThePlayhead : Obligations.SetCurrentMovesThePlayhead := by
  refine fun s i => ⟨fun hi hlen => ?_, fun hi hlen => ?_, fun hi hlen => ?_, fun q => exec_seqSetCurrent_of_le s⟩
  · exact ⟨_, toNat_playhead hi hlen, exec_seqSetCurrent_of_lt s (q := .trig0) hi⟩
  · exact ⟨_, toNat_playhead hi hlen, exec_seqSetCurrent_of_lt s (q := .trig1) hi⟩
  · exact ⟨_, toNat_playhead hi hlen, exec_seqSetCurrent_of_lt s (q := .pitch) hi⟩

/-! ### TRIG_TOGGLE -/

/-- The trigger sequencer `k` with step `i` flipped (R70). -/
def TrigTrack.toggle (k : TrigTrack cfg) (i : Nat) : TrigTrack cfg := k.setStep i (!k.stepActive i)

theorem TrigTrack.stepActive_toggle (k : TrigTrack cfg) (i j : Nat) (h : i < cfg.N_MAX) :
    (k.toggle i).stepActive j = if j = i then !k.stepActive i else k.stepActive j :=
  k.stepActive_setStep i j _ h

theorem TrigTrack.toggle_toggle (k : TrigTrack cfg) (i : Nat) (h : i < cfg.N_MAX) : (k.toggle i).toggle i = k := by
  have hstep : (!(k.toggle i).stepActive i) = k.stepActive i := by
    rw [k.stepActive_toggle i i h, if_pos rfl, Bool.not_not]
  rw [TrigTrack.toggle, hstep, TrigTrack.toggle, TrigTrack.setStep_setStep, TrigTrack.setStep_stepActive]

theorem exec_trigToggle_of_lt (s : State) {u : TrigSel} {i : Nat} (h : i < (s.trig u).len.toNat) :
    exec (.trigToggle u i) s = .next ((s.setTrig u ((s.trig u).toggle i)).answeredWith 0) :=
  if_neg (not_badIndex_of_lt h)

theorem exec_trigToggle_of_le (s : State) {u : TrigSel} {i : Nat} (h : (s.trig u).len.toNat ≤ i) :
    exec (.trigToggle u i) s = .next (s.rejectedWith 4) := if_pos (badIndex_of_le h)

@[simp] theorem State.trig_answeredWith (s : State cfg) (v : Word) (u : TrigSel) :
    (s.answeredWith v).trig u = s.trig u := by
  cases u <;> rfl

theorem State.setTrig_answeredWith (s : State cfg) (v : Word) (u : TrigSel) (k : TrigTrack cfg) :
    (s.answeredWith v).setTrig u k = (s.setTrig u k).answeredWith v := by
  cases u <;> rfl

/-- Settles O31: a second toggle writes the step's old value back into the track. -/
theorem toggleFlipsOneStepAndTwiceRestores : Obligations.ToggleFlipsOneStepAndTwiceRestores := by
  refine fun s u i => ⟨fun hi hlen => ?_, exec_trigToggle_of_le s⟩
  have hmax : i < Config.reference.N_MAX := hi.trans_le hlen
  refine ⟨(s.trig u).toggle i, rfl, rfl, fun j => (s.trig u).stepActive_toggle i j hmax,
    exec_trigToggle_of_lt s hi, ?_⟩
  have htrig : ((s.setTrig u ((s.trig u).toggle i)).answeredWith 0).trig u = (s.trig u).toggle i := by simp
  rw [exec_trigToggle_of_lt _ (by rw [htrig]; exact hi), htrig, TrigTrack.toggle_toggle _ _ hmax,
    State.setTrig_answeredWith, State.setTrig_setTrig, State.setTrig_trig_self]

/-! ### PITCH_SET_NOTE -/

/-- QUANTIZE finds a note in scale, for no gap of the ten scales is longer than its scan (R84). -/
theorem noteInScale_quantize (q : Quantizer) (n : Int) (h : q.scale.toNat < 10) : NoteInScale q (quantize q n) := by
  obtain ⟨j, hj, hin⟩ := scale_gap q n h
  obtain ⟨-, -, hfound, -⟩ := quantizeFrom_spec q 12 n j (by omega) hin
  exact (inScale_iff reference_legal q _ h).1 hfound

theorem exec_pitchSetNote_of_good (s : State) {i : Nat} {n : Int} (hi : i < s.pitch.len.toNat) (h0 : 0 ≤ n)
    (h127 : n ≤ 127) : exec (.pitchSetNote i n) s = .next (State.answeredWith
      { s with pitch := s.pitch.setNote i (quantize s.quant n) } 0) :=
  (if_neg (not_badIndex_of_lt hi)).trans (if_neg (not_badNote h0 h127))

theorem exec_pitchSetNote_of_le (s : State) {i : Nat} (n : Int) (hi : s.pitch.len.toNat ≤ i) :
    exec (.pitchSetNote i n) s = .next (s.rejectedWith 4) := if_pos (badIndex_of_le hi)

theorem exec_pitchSetNote_of_badNote (s : State) {i : Nat} {n : Int} (hi : i < s.pitch.len.toNat)
    (hn : n < 0 ∨ 127 < n) : exec (.pitchSetNote i n) s = .next (s.rejectedWith 5) :=
  (if_neg (not_badIndex_of_lt hi)).trans (if_pos ((badNote_eq_true_iff n).2 hn))

/-- Settles O32: a host's note is moved up by an octave at most, so it fits the element that stores it. -/
theorem setNoteStoresTheQuantizedNote : Obligations.SetNoteStoresTheQuantizedNote := by
  refine fun s i n => ⟨fun hi hlen h0 h127 => ?_, exec_pitchSetNote_of_le s n, exec_pitchSetNote_of_badNote s⟩
  have hq := quantize_range s.quant n
  have hread := fun j =>
    s.pitch.noteAt_setNote i j (quantize s.quant n) (hi.trans_le hlen) (by omega) (by omega)
  refine ⟨s.pitch.setNote i (quantize s.quant n), rfl, rfl, rfl, hread, fun hscale => ?_,
    exec_pitchSetNote_of_good s hi h0 h127⟩
  rw [hread, if_pos rfl]
  exact noteInScale_quantize s.quant n hscale

/-! ### PITCH_SET_TRANSPOSE -/

theorem exec_pitchSetTranspose (d : Int) (s : State) : exec (.pitchSetTranspose d) s = .next (State.answeredWith
    { s with pitch := { s.pitch with transpose := BitVec.ofInt 8 (clampInt d (-64) 64) } } 0) := rfl

/-- Settles O33: the clamped offset fits its register. -/
theorem transposeIsClamped : Obligations.TransposeIsClamped := by
  intro s d
  have hclamp := clampInt_eq_max_min d (-64) 64 (by norm_num)
  refine ⟨_, ?_, exec_pitchSetTranspose d s⟩
  rw [hclamp]
  exact BitVec.toInt_ofInt_eq_self (by omega) (by omega) (by omega)

/-! ### The playing sample step -/

/-- Whether a sample step resets TRIG0 and PITCH: on a tick that takes TRIG1 to an active step (R81, R136). -/
abbrev sampleResets (s : State cfg) : Bool :=
  (sampleStep s).eng.lastTick && (sampleStep s).trig1.currentActive

section
variable (s : State cfg) (hplay : s.eng.play = true)
include hplay

theorem sampleResets_eq : sampleResets s = (clkTicks s.clk && (advanceTrig s.trig1).currentActive) := by
  rw [sampleResets, sampleStep_lastTick s hplay, sampleStep_trig1 s hplay]
  cases clkTicks s.clk <;> rfl

theorem sampleStep_trig1_cur : (sampleStep s).trig1.cur =
    if (sampleStep s).eng.lastTick then nextStep s.trig1.cur s.trig1.len else s.trig1.cur := by
  rw [sampleStep_lastTick s hplay, sampleStep_trig1 s hplay]
  cases clkTicks s.clk <;> rfl

theorem sampleStep_trig0_cur : (sampleStep s).trig0.cur =
    if sampleResets s then 0
    else if (sampleStep s).eng.lastTick then nextStep s.trig0.cur s.trig0.len else s.trig0.cur := by
  rw [sampleResets_eq s hplay, sampleStep_lastTick s hplay, sampleStep_trig0 s hplay]
  cases clkTicks s.clk with
  | false => rfl
  | true => cases (advanceTrig s.trig1).currentActive <;> rfl

theorem sampleStep_pitch_cur : (sampleStep s).pitch.cur =
    if sampleResets s then 0
    else if (sampleStep s).eng.lastTick then nextStep s.pitch.cur s.pitch.len else s.pitch.cur := by
  rw [sampleResets_eq s hplay, sampleStep_lastTick s hplay, sampleStep_pitch s hplay]
  cases clkTicks s.clk with
  | false => rfl
  | true => cases (advanceTrig s.trig1).currentActive <;> rfl

/-- The trigger test reads the step where the tick and the reset have left TRIG0 (R136). -/
theorem lastTrig_eq_currentActive : (sampleStep s).eng.lastTrig =
    ((sampleStep s).eng.lastTick && (sampleStep s).trig0.currentActive) := by
  rw [sampleStep_lastTrig s hplay, sampleStep_lastTick s hplay, sampleStep_trig0 s hplay, ← trackStage_trig0]

/-- A trigger tunes the oscillator to the note where the step has left the pitch track (R136, R67, R97). -/
theorem sampleStep_osc_freq : (sampleStep s).osc.freq =
    if (sampleStep s).eng.lastTrig then (pitchFreq (sampleStep s).pitch).clamp (F32.ofInt 0) (nyqF32 cfg)
    else s.osc.freq := by
  have hosc : (sampleStep s).osc = (playingSample s).osc := by
    rw [sampleStep_of_play s hplay, State.deliver_osc]
  rw [hosc, playingSample_osc, oscProcess_freq, sampleStep_lastTrig s hplay, sampleStep_pitch s hplay,
    ← trackStage_pitch, apply_ite Oscillator.freq, oscSetFreqInt_freq]

end

/-- SEQ_ADVANCE of a legal track (R66). -/
theorem toNat_nextStep_of_legal {len : BitVec 17} {cur : BitVec 16} (h : TrackLegal Config.reference len cur) :
    (nextStep cur len).toNat = (cur.toNat + 1) % len.toNat :=
  toNat_nextStep cur len h.1 (h.2.1.trans (by decide))

/-- Settles O35, register by register. -/
theorem playingSampleRunsTheSequencers : Obligations.PlayingSampleRunsTheSequencers := by
  intro s hs hplay t tick reset
  have htrig0 := toNat_nextStep_of_legal hs.trig0
  have htrig1 := toNat_nextStep_of_legal hs.trig1
  have hpitch := toNat_nextStep_of_legal hs.pitch
  refine ⟨?_, ?_, ?_, lastTrig_eq_currentActive s hplay, sampleStep_osc_freq s hplay⟩
  · rw [sampleStep_trig1_cur s hplay, apply_ite BitVec.toNat, htrig1]
  · rw [sampleStep_trig0_cur s hplay, apply_ite BitVec.toNat, apply_ite BitVec.toNat, htrig0]
    rfl
  · rw [sampleStep_pitch_cur s hplay, apply_ite BitVec.toNat, apply_ite BitVec.toNat, hpitch]
    rfl

/-! ### Two ticks -/

/-- A playing sample step without a tick leaves the trigger tracks alone. -/
theorem sampleStep_trigs_of_no_tick (s : State) (hplay : s.eng.play = true)
    (hquiet : (sampleStep s).eng.lastTick = false) :
    (sampleStep s).trig0 = s.trig0 ∧ (sampleStep s).trig1 = s.trig1 := by
  rw [sampleStep_lastTick s hplay] at hquiet
  rw [sampleStep_trig0 s hplay, sampleStep_trig1 s hplay, hquiet]
  exact ⟨rfl, rfl⟩

/-- Until the next tick the trigger tracks stay as they are, however many samples it takes. -/
theorem trigs_iterate_of_no_tick (s : State) (hplay : s.eng.play = true) (k : Nat)
    (hquiet : ∀ j, j < k → (sampleStep^[j + 1] s).eng.lastTick = false) :
    (sampleStep^[k] s).trig0 = s.trig0 ∧ (sampleStep^[k] s).trig1 = s.trig1 := by
  induction k with
  | zero => exact ⟨rfl, rfl⟩
  | succ k ih =>
    obtain ⟨ih0, ih1⟩ := ih fun j hj => hquiet j (by omega)
    have hlast := hquiet k (by omega)
    rw [Function.iterate_succ_apply'] at hlast ⊢
    obtain ⟨h0, h1⟩ := sampleStep_trigs_of_no_tick _ (play_iterate s hplay k) hlast
    exact ⟨h0.trans ih0, h1.trans ih1⟩

theorem sampleStep_trig1_of_tick (s : State) (hplay : s.eng.play = true)
    (htick : (sampleStep s).eng.lastTick = true) : (sampleStep s).trig1 = advanceTrig s.trig1 := by
  rw [sampleStep_lastTick s hplay] at htick
  rw [sampleStep_trig1 s hplay, if_pos htick]

/-- On a tick TRIG0 goes to step 0 where TRIG1's new step is active, and else one step on (R81). -/
theorem sampleStep_trig0_cur_of_tick (s : State) (hplay : s.eng.play = true)
    (htick : (sampleStep s).eng.lastTick = true) : (sampleStep s).trig0.cur =
      if s.trig1.stepActive (nextStep s.trig1.cur s.trig1.len).toNat then 0
      else nextStep s.trig0.cur s.trig0.len := by
  rw [sampleStep_trig0_cur s hplay, sampleResets, htick, sampleStep_trig1_of_tick s hplay htick]
  rfl

/-- Settles O36: the secondary alternates between its two steps, so one of the two ticks takes it to step 0 and
resets the primary; the other only advances it. -/
theorem crossTrackResetAfterTwoTicks : Obligations.CrossTrackResetAfterTwoTicks := by
  intro s k hplay hlen0 hlen1 hactive hinactive htick hquiet htick'
  have hsplit : sampleStep^[k + 2] s = sampleStep (sampleStep^[k] (sampleStep s)) := by
    rw [Function.iterate_succ_apply', Function.iterate_succ_apply]
  have hplay1 : (sampleStep s).eng.play = true := by rw [sampleStep_play, hplay]
  have hplay2 := play_iterate _ hplay1 k
  obtain ⟨htrig0, htrig1⟩ := trigs_iterate_of_no_tick _ hplay1 k hquiet
  have hlen : (sampleStep s).trig0.len = 8 := (sampleStep_effect s).trig0.len.trans hlen0
  rw [hsplit] at htick' ⊢
  have hfirst := sampleStep_trig0_cur_of_tick s hplay htick
  have hsecond := sampleStep_trig0_cur_of_tick _ hplay2 htick'
  rw [htrig0, htrig1, hlen, sampleStep_trig1_of_tick s hplay htick, advanceTrig_stepActive, advanceTrig_cur,
    advanceTrig_len] at hsecond
  rw [hlen1] at hfirst hsecond
  constructor
  · intro hcur
    rw [hcur] at hsecond
    exact hsecond.trans (if_pos hactive)
  · intro hcur
    rw [hcur] at hfirst hsecond
    rw [hfirst.trans (if_pos hactive)] at hsecond
    exact hsecond.trans (if_neg (ne_true_of_eq_false hinactive))

/-! ### The queries -/

theorem exec_trigGetStep_of_lt (s : State) {u : TrigSel} {i : Nat} (h : i < (s.trig u).len.toNat) :
    exec (.trigGetStep u i) s = .next (s.answeredWith (zextBool ((s.trig u).stepActive i))) :=
  if_neg (not_badIndex_of_lt h)

theorem exec_trigGetStep_of_le (s : State) {u : TrigSel} {i : Nat} (h : (s.trig u).len.toNat ≤ i) :
    exec (.trigGetStep u i) s = .next (s.rejectedWith 4) := if_pos (badIndex_of_le h)

theorem exec_pitchGetNote_of_lt (s : State) {i : Nat} (h : i < s.pitch.len.toNat) :
    exec (.pitchGetNote i) s = .next (s.answeredWith (patternOfInt (s.pitch.noteAt i))) :=
  if_neg (not_badIndex_of_lt h)

theorem exec_pitchGetNote_of_le (s : State) {i : Nat} (h : s.pitch.len.toNat ≤ i) :
    exec (.pitchGetNote i) s = .next (s.rejectedWith 4) := if_pos (badIndex_of_le h)

/-- A signed register of at most 32 bits reads back from its response (R46). -/
theorem toInt_patternOfInt_toInt {w : Nat} (v : BitVec w) (hw : w ≤ 32) : (patternOfInt v.toInt).toInt = v.toInt := by
  have hpow : 2 ^ w ≤ 2 ^ 32 := Nat.pow_le_pow_right (by omega) hw
  have hlo := BitVec.le_two_mul_toInt (x := v)
  have hhi := BitVec.two_mul_toInt_lt (x := v)
  exact toInt_patternOfInt _ (by norm_cast at *; omega) (by norm_cast at *; omega)

/-- Settles O34: each query's answer is its register, or what R67, R76 and R80 compute from the current step. -/
theorem sequencerQueriesReadTheirRegisters : Obligations.SequencerQueriesReadTheirRegisters := by
  refine fun s => ⟨fun q => ⟨?_, ?_⟩, fun u i => ⟨exec_trigGetStep_of_lt s, exec_trigGetStep_of_le s, rfl⟩,
    fun i => ⟨fun hi => ?_, exec_pitchGetNote_of_le s⟩, ?_, rfl, rfl⟩
  · exact ⟨_, toNat_zext32 (s.seqCur q) (by norm_num), rfl⟩
  · exact ⟨_, toNat_zext32 (s.seqLen q) (by norm_num), rfl⟩
  · exact ⟨_, toInt_patternOfInt_toInt _ (by norm_num), exec_pitchGetNote_of_lt s hi⟩
  · exact ⟨_, toInt_patternOfInt_toInt s.pitch.transpose (by norm_num), rfl⟩

end Sys2Proof.Machine
end

section
/-! PROOFS. A binary32 operation whose exact result is a value of the format gives that value (R7); so the reference
EXP2 of an integer is exact (R85). -/

namespace Sys2Proof

/-! ### Exact results -/

theorem F32.isRounded_value (y : F32) (hy : y.isFinite = true) : IsRounded y.value y := by
  have h := isRounded_pack y.sign (F32.unitsOf y.low * 1) 1 one_pos
  rw [F32.roundMag_exact y.low 1 one_pos ((F32.isFinite_iff y).1 hy).le, F32.pack_sign_low] at h
  simpa [F32.value_eq_signed] using h

/-- Rounding a value of the format gives that value (R7). -/
theorem IsRounded.eq_value {x y : F32} (h : IsRounded y.value x) (hy : y.isFinite = true) :
    x.isFinite = true ∧ x.value = y.value := by
  have hbound : |y.value| < overflowBound := by
    by_contra hb
    have hinf := (F32.isRounded_value y hy).1
    rw [if_neg hb, y.isInf_of_finite hy] at hinf
    exact Bool.false_ne_true hinf
  obtain ⟨hx, -⟩ := h
  rw [if_pos hbound] at hx
  obtain ⟨hfin, hnearest, -⟩ := hx
  have hdist := hnearest y hy
  rw [sub_self, abs_zero, abs_nonpos_iff, sub_eq_zero] at hdist
  exact ⟨hfin, hdist⟩

/-- Every significand of at most 24 bits has a pattern in every binade (R5). -/
theorem F32.exists_unitsOf_eq (t n : Nat) (hn : n < 2 ^ 24) :
    ∃ m, F32.unitsOf m = n * 2 ^ t ∧ m < (t + 2) * 2 ^ 23 := by
  induction t generalizing n with
  | zero => exact ⟨n, by rw [F32.unitsOf_small n hn.le, pow_zero, mul_one], hn⟩
  | succ t ih =>
    rcases Nat.lt_or_ge n (2 ^ 23) with hsmall | hfull
    · obtain ⟨m, hm, hlt⟩ := ih (2 * n) (by omega)
      exact ⟨m, by rw [hm]; ring, hlt.trans (Nat.mul_lt_mul_of_pos_right (by omega) (by norm_num))⟩
    · exact ⟨(t + 1) * 2 ^ 23 + n, F32.unitsOf_binade (t + 1) n hfull hn.le, by omega⟩

theorem F32.exists_value_eq (z e : Int) (hz : z.natAbs < 2 ^ 24) (he : -149 ≤ e) (he' : e ≤ 104) :
    ∃ y : F32, y.isFinite = true ∧ y.value = z * 2 ^ e := by
  obtain ⟨t, rfl⟩ : ∃ t : Nat, e = t - 149 := ⟨(e + 149).toNat, by omega⟩
  obtain ⟨m, hm, hlt⟩ := F32.exists_unitsOf_eq t z.natAbs hz
  have hfin : m < F32.infMag := by rw [F32.infMag]; omega
  have hlow := F32.low_pack (decide (z < 0)) m (hfin.trans F32.infMag_lt)
  refine ⟨F32.pack (decide (z < 0)) m, (F32.isFinite_iff _).2 (by rwa [hlow]), ?_⟩
  rw [F32.value_eq_signed, F32.sign_pack _ _ (hfin.trans F32.infMag_lt), hlow, hm, Nat.cast_mul, Nat.cast_natAbs,
    Int.cast_abs, ← signed_mul_right, signed_abs, sub_eq_add_neg, zpow_add₀ two_ne_zero, mul_assoc]
  norm_cast

/-- EXACT RESULTS (R7): `z · 2^e` is a value of the format, so rounding leaves it. -/
theorem IsRounded.exact {x : F32} {z e : Int} (h : IsRounded (z * 2 ^ e) x) (hz : z.natAbs < 2 ^ 24) (he : -149 ≤ e)
    (he' : e ≤ 104) : x.isFinite = true ∧ x.value = z * 2 ^ e := by
  obtain ⟨y, hy, hval⟩ := F32.exists_value_eq z e hz he he'
  rw [← hval] at h ⊢
  exact h.eq_value hy

theorem IsRounded.exact_int {x : F32} {z : Int} (h : IsRounded z x) (hz : z.natAbs < 2 ^ 24) :
    x.isFinite = true ∧ x.value = z := by
  simpa using IsRounded.exact (z := z) (e := 0) (by simpa using h) hz (by norm_num) (by norm_num)

/-- An integer of at most 24 bits is a value of the format (R7). -/
theorem F32.value_ofInt (z : Int) (hz : z.natAbs < 2 ^ 24) : (F32.ofInt z).isFinite = true ∧ (F32.ofInt z).value = z :=
  IsRounded.exact_int (by simpa [F32.ofInt] using isRounded_ofRat z 1 one_pos) hz

/-! ### EXP2 of an integer -/

theorem expSeries_zero (n a : Nat) : expSeries 0 n a = fixOne := by
  cases n <;> simp [expSeries]

theorem exp2Fix_zero : exp2Fix 0 = fixOne := by
  rw [exp2Fix, Nat.zero_mul, Nat.zero_div, expSeries_zero]

/-- The quotient of two powers of two in the same fixed point, in units of 2^-149, rounded once. -/
theorem isRounded_two_zpow (one a b : Nat) (hone : 0 < one) :
    IsRounded (2 ^ ((a : ℤ) - b - 149)) (F32.pack false (F32.roundMag (one * 2 ^ a) (one * 2 ^ b))) := by
  have h := isRounded_pack false (one * 2 ^ a) (one * 2 ^ b) (by positivity)
  have hone' : (one : ℚ) ≠ 0 := by positivity
  rwa [signed_false, Nat.cast_mul, Nat.cast_mul, mul_div_mul_left _ _ hone', Nat.cast_pow, Nat.cast_pow,
    Nat.cast_ofNat, ← zpow_natCast, ← zpow_natCast, ← zpow_sub₀ two_ne_zero, ← zpow_add₀ two_ne_zero] at h

/-- An integer leaves EXP2 no fraction, so its power series is its first term (R7, R85). -/
theorem F32.isRounded_exp2 (x : F32) (k : Int) (hx : x.isFinite = true) (hk : x.value = k) (hlo : -149 ≤ k)
    (hhi : k ≤ 104) : IsRounded (2 ^ k) x.exp2 := by
  have hunits : x.units = k * 2 ^ 149 := by
    rw [F32.value_eq, zpow_neg, mul_inv_eq_iff_eq_mul₀ (by norm_num)] at hk
    exact_mod_cast hk
  unfold F32.units at hunits
  rw [F32.exp2, if_pos hx]
  dsimp only
  cases hs : x.sign
  · obtain ⟨n, rfl⟩ : ∃ n : Nat, k = n := ⟨k.toNat, by simp [hs] at hunits; omega⟩
    have hmag : x.mag = n * 2 ^ 149 := by simp [hs] at hunits; omega
    have hround := isRounded_two_zpow fixOne (149 + n) 0 (by positivity)
    rw [if_neg Bool.false_ne_true, hmag, Nat.mul_div_cancel _ (by positivity), if_neg (by omega),
      Nat.mul_mod_left, fixOfUnits, Nat.zero_mul, exp2Fix_zero]
    simpa using hround
  · obtain ⟨n, rfl⟩ : ∃ n : Nat, k = -n := ⟨(-k).toNat, by simp [hs] at hunits; omega⟩
    have hmag : x.mag = n * 2 ^ 149 := by simp [hs] at hunits; omega
    have hfloor : (n * 2 ^ 149 + (2 ^ 149 - 1)) / 2 ^ 149 = n := by omega
    have hround := isRounded_two_zpow fixOne 149 n (by positivity)
    rw [if_pos rfl, hmag, hfloor, if_neg (by omega), Nat.sub_self, fixOfUnits, Nat.zero_mul, exp2Fix_zero]
    simpa using hround

end Sys2Proof
end

section
/-! PROOFS. The quantizer (R82 to R94): QUANTIZE is the upward scan of `quantizeFrom_spec`, each command is one clamp
or one check of its note, and every step of NOTE_TO_HZ is exact on the octaves of ROOT_NOTE. -/

namespace Sys2Proof.Machine

open Sys2Proof

/-! ### QUANTIZE -/

/-- Settles O37: the scan stops at the first note in scale, which no gap of the ten scales puts beyond 2 above. -/
theorem quantizeIsTheLeastNoteInScale : Obligations.QuantizeIsTheLeastNoteInScale := by
  intro q n hscale
  obtain ⟨j, hj, hin⟩ := scale_gap q n hscale
  obtain ⟨hge, hle, hfound, hskip⟩ := quantizeFrom_spec q 12 n j (by omega) hin
  have hmem := fun m => inScale_iff reference_legal q m hscale
  refine ⟨hge, hle.trans (by omega), (hmem _).1 hfound, fun m hnm hm => ?_⟩
  rw [← hmem m, hskip m hnm hm]
  exact Bool.false_ne_true

/-- A note in scale is returned unchanged (R84). -/
theorem quantize_of_inScale {cfg : Config} {q : Quantizer cfg} {n : Int} (h : inScale q n = true) :
    quantize q n = n := if_pos h

/-- Every note is in the chromatic scale (R82). -/
theorem inScale_chromatic {q : Quantizer} (h : q.scale = 0) (n : Int) : inScale q n = true := by
  have hrow : scaleRow q = List.range 12 := by
    unfold scaleRow
    rw [h]
    rfl
  have hdegree : degreeOf q n < 12 := by
    unfold degreeOf
    omega
  rw [inScale, hrow]
  exact List.contains_iff_mem.2 (List.mem_range.2 hdegree)

/-- Settles O38: the scan stays where it stands on a note in scale. -/
theorem quantizeIsIdempotentAndChromaticIsIdentity : Obligations.QuantizeIsIdempotentAndChromaticIsIdentity := by
  intro q n hscale
  have hfound := noteInScale_quantize q n hscale
  exact ⟨quantize_of_inScale ((inScale_iff reference_legal q _ hscale).2 hfound), hfound,
    fun h => quantize_of_inScale (inScale_chromatic h n)⟩

/-! ### The commands -/

theorem exec_qSetKey (k : Int) (s : State) : exec (.qSetKey k) s = .next (State.answeredWith
    { s with quant := { s.quant with key := BitVec.ofInt 4 (clampInt k 0 11) } } 0) := rfl

theorem exec_qSetScale (k : Int) (s : State) : exec (.qSetScale k) s = .next (State.answeredWith
    { s with quant := { s.quant with scale := BitVec.ofInt 8 (clampInt k 0 9) } } 0) := rfl

/-- Settles O39: a clamped operand fits its register. -/
theorem keyAndScaleAreClamped : Obligations.KeyAndScaleAreClamped := fun s k =>
  ⟨⟨_, toNat_ofInt_clampInt_eq 4 k 11 (by norm_num) (by norm_num), exec_qSetKey k s⟩,
    ⟨_, toNat_ofInt_clampInt_eq 8 k 9 (by norm_num) (by norm_num), exec_qSetScale k s⟩⟩

/-- The three queries of a note in range answer (R89, R90, R91). -/
theorem exec_noteQueries_of_good (s : State) {n : Int} (h0 : 0 ≤ n) (h127 : n ≤ 127) :
    exec (.qQuantize n) s = .next (s.answeredWith (patternOfInt (quantize s.quant n))) ∧
      (∀ b : Bool, exec (.qNoteToHz b n) s =
        .next (s.answeredWith (noteToHz Config.reference (if b then quantize s.quant n else n)).bits)) ∧
      exec (.qNoteToName n) s = .next (s.answeredWith (noteToName n)) :=
  have hgood := not_badNote h0 h127
  ⟨if_neg hgood, fun _ => if_neg hgood, if_neg hgood⟩

/-- The three queries of a note out of range are rejected (R89, R90, R91). -/
theorem exec_noteQueries_of_bad (s : State) {n : Int} (h : n < 0 ∨ 127 < n) :
    exec (.qQuantize n) s = .next (s.rejectedWith 5) ∧
      (∀ b : Bool, exec (.qNoteToHz b n) s = .next (s.rejectedWith 5)) ∧
      exec (.qNoteToName n) s = .next (s.rejectedWith 5) :=
  have hbad := (badNote_eq_true_iff n).2 h
  ⟨if_pos hbad, fun _ => if_pos hbad, if_pos hbad⟩

/-- Settles O40: a quantized note is an octave above its operand at most, so its pattern reads back. -/
theorem quantizerQueriesAnswerOrRejectTheNote : Obligations.QuantizerQueriesAnswerOrRejectTheNote := by
  refine fun s => ⟨fun n h0 h127 => ?_, fun n => exec_noteQueries_of_bad s, ?_, rfl, ?_, rfl⟩
  · obtain ⟨hquantize, hhz, hname⟩ := exec_noteQueries_of_good s h0 h127
    have hrange := quantize_range s.quant n
    exact ⟨⟨_, toInt_patternOfInt _ (by omega) (by omega), hquantize⟩, hhz false, hhz true, hname⟩
  · exact ⟨_, toNat_zext32 s.quant.key (by norm_num), rfl⟩
  · exact ⟨_, toNat_zext32 s.quant.scale (by norm_num), rfl⟩

/-! ### NOTE_TO_HZ and NOTE_TO_NAME -/

/-- Each step of NOTE_TO_HZ is exact `k` octaves from ROOT_NOTE: the quotient is `k`, its power `2^k` (R85). -/
theorem noteToHz_octave (k : Int) (hlo : -149 ≤ k) (hhi : k ≤ 104) :
    (noteToHz Config.reference (69 + 12 * k)).value = 440 * 2 ^ k := by
  obtain ⟨hnum, hnumv⟩ := F32.value_ofInt (12 * k) (by omega)
  obtain ⟨hden, hdenv⟩ := F32.value_ofInt 12 (by norm_num)
  obtain ⟨hroot, hrootv⟩ := F32.value_ofInt 440 (by norm_num)
  have hdiv := F32.isRounded_div _ _ hnum hden (by rw [hdenv]; norm_num)
  rw [hnumv, hdenv, Int.cast_mul, mul_div_cancel_left₀ _ (by norm_num)] at hdiv
  obtain ⟨hq, hqv⟩ := hdiv.exact_int (by omega)
  have hexp := F32.isRounded_exp2 _ k hq hqv hlo hhi
  rw [← one_mul ((2 : ℚ) ^ k), ← Int.cast_one] at hexp
  obtain ⟨he, hev⟩ := hexp.exact (by norm_num) hlo hhi
  have hmul := F32.isRounded_mul _ _ hroot he
  rw [hrootv, hev, Int.cast_one, one_mul] at hmul
  have hnote : 69 + 12 * k - 69 = 12 * k := by omega
  rw [noteToHz, reference_ROOT_NOTE, hnote]
  simpa using (hmul.exact (by norm_num) hlo hhi).2

theorem noteToName_add_octave (m : Int) : noteToName (m + 12) = noteToName m := by
  rw [noteToName_emod, Int.add_emod_right, ← noteToName_emod]

/-- Settles O41: the octaves of ROOT_NOTE are exact, and the names count modulo 12. -/
theorem octavesOfTheRootAreExactAndNamesRepeat : Obligations.OctavesOfTheRootAreExactAndNamesRepeat := by
  refine ⟨fun _ => rfl, fun k hk => ?_, noteToName_add_octave, rfl⟩
  have hk12 := List.mem_range.1 hk
  have hup := noteToHz_octave k (by omega) (by omega)
  have hdown := noteToHz_octave (-k) (by omega) (by omega)
  rw [zpow_natCast] at hup
  rw [mul_neg, ← sub_eq_add_neg, zpow_neg, zpow_natCast, ← div_eq_mul_inv] at hdown
  exact ⟨hup, hdown⟩

end Sys2Proof.Machine
end

section
/-! PROOFS. The oscillator (R96 to R108): a setter clamps its operand or resyncs the recurrence, or both, and the
triangle is symmetric because each step of its ramp is exact on the multiples of 2^-24, so the ramps at `p` and `1 - p`
differ in sign only. -/

namespace Sys2Proof

/-! ### The magnitude of a value -/

theorem F32.abs_eq_pack (a : F32) : a.abs = F32.pack false a.low := by
  have hbits : (a.bits &&& 0x7FFFFFFF).toNat = a.low := by
    rw [BitVec.toNat_and]
    exact Nat.and_two_pow_sub_one_eq_mod a.bits.toNat 31
  refine congrArg F32.mk (BitVec.eq_of_toNat_eq (hbits.trans ?_))
  rw [BitVec.toNat_ofNat, if_neg Bool.false_ne_true, Nat.mod_eq_of_lt (a.low_lt.trans (by norm_num))]

/-- `fabs` forgets the sign of a value (R7). -/
theorem F32.abs_eq_of_value_eq_neg {a b : F32} (h : a.value = -b.value) : a.abs = b.abs := by
  have hunits : a.units = -b.units := by
    rw [F32.value_eq, F32.value_eq, ← neg_mul, mul_left_inj' (by positivity)] at h
    exact_mod_cast h
  have hmag : a.mag = b.mag := by rw [← a.natAbs_units, hunits, Int.natAbs_neg, b.natAbs_units]
  rw [F32.abs_eq_pack, F32.abs_eq_pack, F32.unitsOf_strictMono.injective hmag]

/-! ### The binade from one half to one -/

/-- The values of [0.5, 1) are the multiples of 2^-24 there (R5). -/
theorem F32.exists_value_eq_of_half_le {p : F32} (h1 : (F32.ofRat 1 2).le p = true) (h2 : p.lt (F32.ofInt 1) = true) :
    p.isFinite = true ∧ ∃ z : Int, 2 ^ 23 ≤ z ∧ z < 2 ^ 24 ∧ p.value = z * 2 ^ (-24 : ℤ) := by
  have hhalf : (F32.ofRat 1 2).key = 126 * 2 ^ 23 := by decide +kernel
  have hone : (F32.ofInt 1).key = 127 * 2 ^ 23 := by decide +kernel
  obtain ⟨-, -, hlo⟩ := (F32.le_iff _ p).1 h1
  obtain ⟨-, -, hhi⟩ := (F32.lt_iff p _).1 h2
  rw [hhalf] at hlo
  rw [hone] at hhi
  have hsign : p.sign = false := by rw [← p.isNegative_eq_sign, p.isNegative_of_key_pos (by omega)]
  have hkey : p.key = p.low := by simp [F32.key, hsign]
  obtain ⟨j, hj⟩ : ∃ j, p.low = 125 * 2 ^ 23 + j := ⟨p.low - 125 * 2 ^ 23, by omega⟩
  have hvalue : p.value = ((j : ℕ) : ℤ) * 2 ^ (-24 : ℤ) := by
    rw [p.value_eq_signed, hsign, hj, F32.unitsOf_binade 125 j (by omega) (by omega)]
    norm_num [mul_assoc]
  exact ⟨(F32.isFinite_iff p).2 (by rw [F32.infMag]; omega), j, by omega, by omega, hvalue⟩

/-! ### Exact products and differences -/

section

variable {a b : F32} {z e : Int}

/-- A product that is a value of the format is not rounded (R7). -/
theorem F32.mul_exact (ha : a.isFinite = true) (hb : b.isFinite = true) (h : a.value * b.value = z * 2 ^ e)
    (hz : z.natAbs < 2 ^ 24) (he : -149 ≤ e) (he' : e ≤ 104) :
    (a.mul b).isFinite = true ∧ (a.mul b).value = z * 2 ^ e :=
  IsRounded.exact (h ▸ a.isRounded_mul b ha hb) hz he he'

/-- A difference that is a value of the format is not rounded (R7). -/
theorem F32.sub_exact (ha : a.isFinite = true) (hb : b.isFinite = true) (h : a.value - b.value = z * 2 ^ e)
    (hz : z.natAbs < 2 ^ 24) (he : -149 ≤ e) (he' : e ≤ 104) :
    (a.sub b).isFinite = true ∧ (a.sub b).value = z * 2 ^ e :=
  IsRounded.exact (h ▸ a.isRounded_sub b ha hb) hz he he'

end

/-- A finite value times +0 is a zero (R7). -/
theorem F32.mul_zero_exact (a : F32) (ha : a.isFinite = true) :
    (a.mul (F32.ofInt 0)).isFinite = true ∧ (a.mul (F32.ofInt 0)).value = 0 := by
  obtain ⟨hzero, hzerov⟩ := F32.value_ofInt 0 (by norm_num)
  simpa using F32.mul_exact (z := 0) (e := 0) ha hzero (by simp [hzerov]) (by norm_num) (by norm_num) (by norm_num)

end Sys2Proof

namespace Sys2Proof.Machine

open Sys2Proof

variable {cfg : Config}

/-! ### The wave of each mode -/

/-- In mode 1 the sample reads the phase, through the triangle, and the amplitude (R99). -/
theorem oscOut_triangle {o : Oscillator cfg} (h : o.mode = 1) (p : F32) :
    oscOut ({ o with phase := p } : Oscillator cfg) = o.amp.mul (triangle p) := by
  simp [oscOut, oscWave, h]

theorem oscOut_unknown {o : Oscillator cfg} (h0 : o.mode ≠ 0) (h1 : o.mode ≠ 1) (h2 : o.mode ≠ 2) :
    oscOut o = o.amp.mul (F32.ofInt 0) := by
  rw [oscOut, oscWave, if_neg h0, if_neg h1, if_neg h2]

/-- Outside sine mode the phase alone advances (R99). -/
theorem oscProcess_of_not_sine {o : Oscillator cfg} (h : o.mode ≠ 0) :
    oscProcess o = { o with phase := nextPhase o.phase o.inc } := if_neg h

/-- Settles O45: the sample is the amplitude times +0, and the phase never looks at the mode. -/
theorem unknownModeIsSilent : Obligations.UnknownModeIsSilent := by
  intro cfg o h0 h1 h2 hamp
  obtain ⟨hfin, hval⟩ := o.amp.mul_zero_exact hamp
  rw [oscOut_unknown h0 h1 h2, oscProcess_phase]
  exact ⟨hfin, hval, oscProcess_of_not_sine h0, fun m => oscProcess_phase _⟩

/-! ### The triangle -/

section

variable {p : F32} {z : Int}

/-- Both steps of the saw ramp are exact on the multiples of 2^-24 in [0, 1) (R99). -/
theorem sawRamp_exact (hp : p.isFinite = true) (hz : 0 ≤ z) (hz1 : z < 2 ^ 24) (hv : p.value = z * 2 ^ (-24 : ℤ)) :
    (sawRamp p).value = ((z - 2 ^ 23 : ℤ) : ℚ) * 2 ^ (-23 : ℤ) := by
  obtain ⟨htwo, htwov⟩ := F32.value_ofInt 2 (by norm_num)
  obtain ⟨hone, honev⟩ := F32.value_ofInt 1 (by norm_num)
  have hdouble : (F32.ofInt 2).value * p.value = z * 2 ^ (-23 : ℤ) := by
    rw [htwov, hv]
    norm_num
    ring
  obtain ⟨hd, hdv⟩ := F32.mul_exact htwo hp hdouble (by omega) (by norm_num) (by norm_num)
  have hramp : ((F32.ofInt 2).mul p).value - (F32.ofInt 1).value = ((z - 2 ^ 23 : ℤ) : ℚ) * 2 ^ (-23 : ℤ) := by
    rw [hdv, honev]
    norm_num
    ring
  exact (F32.sub_exact hd hone hramp (by omega) (by norm_num) (by norm_num)).2

/-- `1 -f p` is exact on the multiples of 2^-24 in (0, 1) (R7). -/
theorem one_sub_exact (hp : p.isFinite = true) (hz : 0 < z) (hz1 : z < 2 ^ 24) (hv : p.value = z * 2 ^ (-24 : ℤ)) :
    ((F32.ofInt 1).sub p).isFinite = true ∧
      ((F32.ofInt 1).sub p).value = ((2 ^ 24 - z : ℤ) : ℚ) * 2 ^ (-24 : ℤ) := by
  obtain ⟨hone, honev⟩ := F32.value_ofInt 1 (by norm_num)
  have hsub : (F32.ofInt 1).value - p.value = ((2 ^ 24 - z : ℤ) : ℚ) * 2 ^ (-24 : ℤ) := by
    rw [honev, hv]
    norm_num
    ring
  exact F32.sub_exact hone hp hsub (by omega) (by norm_num) (by norm_num)

end

/-- The ramp at `1 - p` is the ramp at `p` negated, and the triangle reads its magnitude (R99). -/
theorem triangle_one_sub {p : F32} (h1 : (F32.ofRat 1 2).le p = true) (h2 : p.lt (F32.ofInt 1) = true) :
    triangle ((F32.ofInt 1).sub p) = triangle p := by
  obtain ⟨hp, z, hlo, hhi, hv⟩ := F32.exists_value_eq_of_half_le h1 h2
  obtain ⟨hq, hqv⟩ := one_sub_exact hp (by omega) hhi hv
  have hramp := sawRamp_exact hp (by omega) hhi hv
  have hrampq := sawRamp_exact hq (by omega) (by omega) hqv
  have habs : (sawRamp ((F32.ofInt 1).sub p)).abs = (sawRamp p).abs := by
    apply F32.abs_eq_of_value_eq_neg
    rw [hramp, hrampq]
    push_cast
    ring
  rw [triangle, habs, triangle]

/-- The amplitude 1 times the triangle at the quarters of the phase (R108). -/
theorem triangle_quarters :
    F32.mul ⟨0x3F800000⟩ (triangle ⟨0x00000000⟩) = ⟨0x3F800000⟩ ∧
      F32.mul ⟨0x3F800000⟩ (triangle ⟨0x3E800000⟩) = ⟨0x00000000⟩ ∧
      F32.mul ⟨0x3F800000⟩ (triangle ⟨0x3F000000⟩) = ⟨0xBF800000⟩ ∧
      F32.mul ⟨0x3F800000⟩ (triangle ⟨0x3F400000⟩) = ⟨0x00000000⟩ := by decide +kernel

/-- Settles O46: in mode 1 the sample depends on the phase through the triangle alone. -/
theorem triangleIsSymmetric : Obligations.TriangleIsSymmetric := by
  intro cfg o hmode
  refine ⟨fun p h1 h2 => ?_, fun hamp => ?_⟩
  · rw [oscOut_triangle hmode, oscOut_triangle hmode, triangle_one_sub h1 h2]
  · obtain ⟨h0, h25, h50, h75⟩ := triangle_quarters
    have hout : oscOut o = F32.mul ⟨0x3F800000⟩ (triangle o.phase) := by
      rw [← hamp, ← oscOut_triangle hmode o.phase]
    rw [hout]
    exact ⟨fun h => by rw [h, h0], fun h => by rw [h, h25], fun h => by rw [h, h50], fun h => by rw [h, h75]⟩

/-! ### The commands -/

theorem exec_oscSetFreq_of_number (s : State) {f : F32} (h : f.isNaN = false) : exec (.oscSetFreq f) s =
    .next (State.answeredWith { s with osc := oscSetFreqInt f s.osc } 0) := if_neg (by simp [h])

theorem exec_oscSetAmp_of_number (s : State) {a : F32} (h : a.isNaN = false) : exec (.oscSetAmp a) s =
    .next (State.answeredWith { s with osc := { s.osc with amp := a.clamp (F32.ofInt 0) (F32.ofInt 1) } } 0) :=
  if_neg (by simp [h])

theorem exec_oscSetMode (m : Word) (s : State) : exec (.oscSetMode m) s =
    .next (State.answeredWith { s with osc := oscResync { s.osc with mode := m } } 0) := rfl

/-- Settles O42: the amplitude is clamped in place; the frequency and the mode go through OSC_RESYNC. -/
theorem oscillatorSettersClampAndResync : Obligations.OscillatorSettersClampAndResync := fun s =>
  ⟨fun f hf => ⟨_, tunedTo_oscSetFreqInt f s.osc, exec_oscSetFreq_of_number s hf⟩,
    fun _ ha => ⟨_, rfl, exec_oscSetAmp_of_number s ha⟩,
    fun m => ⟨_, resynced_oscResync _, rfl, exec_oscSetMode m s⟩⟩

/-- Settles O43: each query's answer is its register. -/
theorem oscillatorQueriesReadTheirRegisters : Obligations.OscillatorQueriesReadTheirRegisters := fun _ =>
  ⟨rfl, rfl, rfl, rfl, rfl, rfl, rfl, rfl, rfl⟩

end Sys2Proof.Machine
end

section
/-! PROOFS. The filter (R109 to R124): a setter clamps its operand and recomputes, and the table finds a point of its
grid again, because the rounded roots rise with the index: an earlier cell is taken only where its point is equal. -/

namespace Sys2Proof

/-! ### Rounded roots -/

theorem greatestBits_range (ok : Nat → Bool) (k acc : Nat) :
    acc ≤ greatestBits ok k acc ∧ greatestBits ok k acc < acc + 2 ^ k := by
  induction k generalizing acc with
  | zero => simp [greatestBits]
  | succ k ih =>
    have hskip := ih acc
    have htake := ih (acc + 2 ^ k)
    rw [greatestBits, pow_succ]
    split_ifs <;> omega

/-- A weaker test makes no smaller number: with the first bit that it alone takes it passes all the other can make. -/
theorem greatestBits_mono {ok ok' : Nat → Bool} (h : ∀ m, ok m = true → ok' m = true) (k acc : Nat) :
    greatestBits ok k acc ≤ greatestBits ok' k acc := by
  induction k generalizing acc with
  | zero => rfl
  | succ k ih =>
    rw [greatestBits, greatestBits]
    by_cases hok : ok (acc + 2 ^ k) = true
    · rw [if_pos hok, if_pos (h _ hok)]
      exact ih _
    · rw [if_neg hok]
      by_cases hok' : ok' (acc + 2 ^ k) = true
      · rw [if_pos hok']
        exact (greatestBits_range ok k acc).2.le.trans (greatestBits_range ok' k (acc + 2 ^ k)).1
      · rw [if_neg hok']
        exact ih _

/-- The neighbour, `b` or `b + 1`, on whose side of their midpoint `mid` the number `t` is; the even one on a tie. -/
def roundAtMidpoint (b mid t : Nat) : Nat :=
  if mid < t then b + 1 else if t < mid then b else if b % 2 = 0 then b else b + 1

theorem roundAtMidpoint_mem (b mid t : Nat) : b ≤ roundAtMidpoint b mid t ∧ roundAtMidpoint b mid t ≤ b + 1 := by
  unfold roundAtMidpoint
  split_ifs <;> omega

theorem roundAtMidpoint_mono (b mid : Nat) : Monotone (roundAtMidpoint b mid) := by
  intro t t' h
  unfold roundAtMidpoint
  split_ifs <;> omega

/-- The greatest magnitude pattern whose value is no more than `(num / den)^(1/n)`, which `rootF32` finds first. -/
def rootFloor (n num den : Nat) : Nat :=
  greatestBits (fun m => decide (F32.unitsOf m ^ n * den ≤ num * 2 ^ (149 * n))) 31 0

/-- The magnitude pattern of `rootF32`. -/
def rootMag (n num den : Nat) : Nat :=
  roundAtMidpoint (rootFloor n num den)
    ((F32.unitsOf (rootFloor n num den) + F32.unitsOf (rootFloor n num den + 1)) ^ n * den)
    (num * 2 ^ (149 * n) * 2 ^ n)

theorem rootF32_eq_pack (n num den : Nat) : rootF32 n num den = F32.pack false (rootMag n num den) := by
  simp only [rootMag, roundAtMidpoint, apply_ite (F32.pack false)]
  rfl

theorem rootFloor_mono (n den : Nat) : Monotone fun num => rootFloor n num den := by
  intro num num' h
  refine greatestBits_mono (fun m hm => ?_) 31 0
  rw [decide_eq_true_iff] at hm ⊢
  exact hm.trans (Nat.mul_le_mul_right _ h)

theorem rootMag_mono (n den : Nat) : Monotone fun num => rootMag n num den := by
  intro num num' h
  have hfloor : rootFloor n num den ≤ rootFloor n num' den := rootFloor_mono n den h
  rcases hfloor.lt_or_eq with hlt | heq
  · exact (roundAtMidpoint_mem _ _ _).2.trans (hlt.trans_le (roundAtMidpoint_mem _ _ _).1)
  · show rootMag n num den ≤ rootMag n num' den
    rw [rootMag, rootMag, heq]
    exact roundAtMidpoint_mono _ _ (Nat.mul_le_mul_right _ (Nat.mul_le_mul_right _ h))

end Sys2Proof

namespace Sys2Proof.Machine

open Sys2Proof

/-! ### The nearest point of a grid -/

/-- The points `g 0`, …, `g (len - 1)` are positive numbers that never fall. -/
structure IsRisingGrid (g : Nat → F32) (len : Nat) : Prop where
  pos : ∀ k, k < len → 0 < (g k).units
  mono : ∀ j k, j ≤ k → k < len → (g j).units ≤ (g k).units

/-- Where the scan of NEAREST stops, and that it passed what came before (R110). -/
theorem nearestFrom_spec (g : Nat → F32) (x : F32) (n k : Nat) :
    k ≤ nearestFrom g x n k ∧ nearestFrom g x n k ≤ k + n ∧
      (nearestFrom g x n k < k + n →
        x.units * x.units ≤ (g (nearestFrom g x n k)).units * (g (nearestFrom g x n k + 1)).units) ∧
      ∀ j, k ≤ j → j < nearestFrom g x n k → (g j).units * (g (j + 1)).units < x.units * x.units := by
  induction n generalizing k with
  | zero =>
    refine ⟨le_rfl, le_rfl, fun h => absurd h (lt_irrefl _), fun j h h' => ?_⟩
    exact absurd (h.trans_lt h') (lt_irrefl _)
  | succ n ih =>
    rw [nearestFrom]
    split_ifs with hstop
    · exact ⟨le_rfl, by omega, fun _ => hstop, fun j h h' => absurd (h.trans_lt h') (lt_irrefl _)⟩
    · obtain ⟨hlo, hhi, hfires, hpassed⟩ := ih (k + 1)
      refine ⟨by omega, by omega, fun h => hfires (by omega), fun j h h' => ?_⟩
      rcases h.eq_or_lt with rfl | hlt
      · exact not_le.1 hstop
      · exact hpassed j hlt h'

/-- NEAREST stops at the last index, or at the first two points whose product is not below the square of `x` (R110). -/
theorem nearest_spec (g : Nat → F32) (len : Nat) (x : F32) :
    nearest g len x ≤ len - 1 ∧
      (nearest g len x < len - 1 →
        x.units * x.units ≤ (g (nearest g len x)).units * (g (nearest g len x + 1)).units) ∧
      ∀ j, j < nearest g len x → (g j).units * (g (j + 1)).units < x.units * x.units := by
  obtain ⟨-, hlast, hfires, hpassed⟩ := nearestFrom_spec g x (len - 1) 0
  rw [zero_add] at hlast hfires
  exact ⟨hlast, hfires, fun j => hpassed j j.zero_le⟩

/-- NEAREST of a grid point answers that point, be it by the least index that has it (R110). -/
theorem IsRisingGrid.apply_nearest {g : Nat → F32} {len : Nat} (hg : IsRisingGrid g len) {i : Nat} (hi : i < len) :
    g (nearest g len (g i)) = g i := by
  obtain ⟨hlast, hfires, hpassed⟩ := nearest_spec g len (g i)
  generalize nearest g len (g i) = r at *
  have hipos := hg.pos i hi
  have hri : r ≤ i := by
    by_contra hir
    have hnext := hg.mono i (i + 1) (by omega) (by omega)
    exact absurd (hpassed i (by omega)) (not_lt.2 (mul_le_mul_of_nonneg_left hnext hipos.le))
  have hle := hg.mono r i hri hi
  have hge : (g i).units ≤ (g r).units := by
    rcases hri.eq_or_lt with rfl | hlt
    · exact le_rfl
    · have hnext := hg.mono (r + 1) i hlt hi
      have hrpos := hg.pos r (by omega)
      have hprod := hfires (by omega)
      exact le_of_mul_le_mul_right (hprod.trans (mul_le_mul_of_nonneg_left hnext hrpos.le)) hipos
  apply F32.eq_of_key_eq
  · exact le_antisymm ((F32.units_le_units_iff _ _).1 hle) ((F32.units_le_units_iff _ _).1 hge)
  · exact ((F32.units_pos_iff _).1 (hipos.trans_le hge)).ne'

/-- A grid of rising magnitude patterns rises, where the first is no zero and the last leaves the sign bit free. -/
theorem isRisingGrid_of_patterns {g : Nat → F32} {m : Nat → Nat} {len : Nat} (hg : ∀ k, g k = F32.pack false (m k))
    (hm : Monotone m) (hfirst : 0 < m 0) (hlast : m (len - 1) < 2 ^ 31) : IsRisingGrid g len := by
  have hkey : ∀ k, k < len → (g k).key = m k := by
    intro k hk
    have hle : m k ≤ m (len - 1) := hm (by omega)
    rw [hg, F32.key_pack _ _ (hle.trans_lt hlast), if_neg Bool.false_ne_true]
  constructor
  · intro k hk
    rw [F32.units_pos_iff, hkey k hk]
    exact_mod_cast hfirst.trans_le (hm (Nat.zero_le k))
  · intro j k hjk hk
    rw [F32.units_le_units_iff, hkey j (hjk.trans_lt hk), hkey k hk]
    exact_mod_cast hm hjk

/-! ### The grids of R110 -/

/-- The magnitude pattern of `GF[i]` (R110). -/
def patternF (cfg : Config) (i : Nat) : Nat := rootMag (cfg.NF - 1) (20 ^ (cfg.NF - 1) * 1000 ^ i) 1

/-- The magnitude pattern of `GQ[j]` (R110). -/
def patternQ (cfg : Config) (j : Nat) : Nat := rootMag (cfg.NQ - 1) (25 ^ j) (5 ^ (cfg.NQ - 1))

theorem gridF_eq_pack (cfg : Config) (i : Nat) : gridF cfg i = F32.pack false (patternF cfg i) := rootF32_eq_pack _ _ _

theorem gridQ_eq_pack (cfg : Config) (j : Nat) : gridQ cfg j = F32.pack false (patternQ cfg j) := rootF32_eq_pack _ _ _

theorem patternF_mono (cfg : Config) : Monotone (patternF cfg) := fun _ _ h =>
  rootMag_mono _ _ (Nat.mul_le_mul_left _ (Nat.pow_le_pow_right (by norm_num) h))

theorem patternQ_mono (cfg : Config) : Monotone (patternQ cfg) := fun _ _ h =>
  rootMag_mono _ _ (Nat.pow_le_pow_right (by norm_num) h)

theorem patternF_ends : patternF Config.reference 0 = 0x41A00000 ∧ patternF Config.reference 511 = 0x469C4000 := by
  decide +kernel

theorem patternQ_ends : patternQ Config.reference 0 = 0x3E4CCCCD ∧ patternQ Config.reference 31 = 0x40A00000 := by
  decide +kernel

theorem isRisingGrid_gridF : IsRisingGrid (gridF Config.reference) 512 := by
  obtain ⟨hfirst, hlast⟩ := patternF_ends
  refine isRisingGrid_of_patterns (gridF_eq_pack _) (patternF_mono _) ?_ ?_
  · rw [hfirst]; norm_num
  · rw [hlast]; norm_num

theorem isRisingGrid_gridQ : IsRisingGrid (gridQ Config.reference) 32 := by
  obtain ⟨hfirst, hlast⟩ := patternQ_ends
  refine isRisingGrid_of_patterns (gridQ_eq_pack _) (patternQ_mono _) ?_ ?_
  · rw [hfirst]; norm_num
  · rw [hlast]; norm_num

/-- COEF_TABLE at a grid point is the cell of that point (R110). -/
theorem coefTable_gridPoint {i j : Nat} (hi : i < 512) (hj : j < 32) :
    coefTable Config.reference (gridF Config.reference i) (gridQ Config.reference j) =
      coefDirect Config.reference (gridF Config.reference i) (gridQ Config.reference j) :=
  congrArg₂ (coefDirect Config.reference) (isRisingGrid_gridF.apply_nearest hi) (isRisingGrid_gridQ.apply_nearest hj)

/-- The ends of the axes as numbers (R110). -/
theorem grid_ends :
    gridF Config.reference 0 = F32.ofInt 20 ∧ gridF Config.reference 511 = F32.ofInt 20000 ∧
      gridQ Config.reference 0 = F32.ofRat 2 10 ∧ gridQ Config.reference 31 = F32.ofInt 5 := by
  obtain ⟨hf0, hf511⟩ := patternF_ends
  obtain ⟨hq0, hq31⟩ := patternQ_ends
  rw [gridF_eq_pack, gridF_eq_pack, gridQ_eq_pack, gridQ_eq_pack, hf0, hf511, hq0, hq31]
  decide +kernel

/-- Settles O49: NEAREST finds a grid point again on each axis, and the cell there is COEF_DIRECT's. -/
theorem tableMeetsDirectAtGridPoints : Obligations.TableMeetsDirectAtGridPoints := by
  refine ⟨fun cfg f q => ⟨fun h => ?_, fun h => ?_⟩, fun _ _ => coefTable_gridPoint, grid_ends⟩ <;> rw [coefOf, h]

/-! ### The commands -/

theorem exec_filtSetFreq_of_number (s : State) {f : F32} (h : f.isNaN = false) : exec (.filtSetFreq f) s =
    .next (State.answeredWith { s with filt := filtRecompute { s.filt with freq := clampFiltFreq f } } 0) :=
  if_neg (by simp [h])

theorem exec_filtSetQ_of_number (s : State) {q : F32} (h : q.isNaN = false) : exec (.filtSetQ q) s =
    .next (State.answeredWith { s with filt := filtRecompute { s.filt with q := q.clamp minQ (F32.ofInt 5) } } 0) :=
  if_neg (by simp [h])

theorem exec_filtAddFreq_of_number (s : State) {d : F32} (h : d.isNaN = false) : exec (.filtAddFreq d) s =
    .next (State.answeredWith { s with filt := filtRecompute { s.filt with mod := clampOffset d } } 0) :=
  if_neg (by simp [h])

theorem exec_filtSetEnvDepth_of_number (s : State) {d : F32} (h : d.isNaN = false) : exec (.filtSetEnvDepth d) s =
    .next (State.answeredWith { s with filt := { s.filt with depth := clampOffset d } } 0) :=
  if_neg (by simp [h])

/-- Settles O47: each setter is FILT_RECOMPUTE after one clamped write; the depth is only clamped. -/
theorem filterSettersClampAndRecompute : Obligations.FilterSettersClampAndRecompute := by
  refine ⟨isDirectCoefs_coefDirect, fun s v hv => ⟨?_, ?_, ?_, exec_filtSetEnvDepth_of_number s hv⟩⟩
  · exact ⟨filtRecompute { s.filt with freq := clampFiltFreq v }, rfl, rfl, rfl, exec_filtSetFreq_of_number s hv⟩
  · exact ⟨filtRecompute { s.filt with q := v.clamp minQ (F32.ofInt 5) }, rfl, rfl, rfl, exec_filtSetQ_of_number s hv⟩
  · exact ⟨filtRecompute { s.filt with mod := clampOffset v }, rfl, rfl, rfl, exec_filtAddFreq_of_number s hv⟩

/-- Settles O48: each query's answer is its register. -/
theorem filterQueriesReadTheirRegisters : Obligations.FilterQueriesReadTheirRegisters := fun _ =>
  ⟨rfl, rfl, rfl, rfl, rfl, rfl, rfl, rfl, rfl, rfl, rfl, rfl, rfl, rfl, rfl, rfl, rfl, rfl⟩

end Sys2Proof.Machine
end

section
/-! PROOFS. The envelopes (R125 to R135). Addition, and division by a positive time, are monotone also where they
round or run into +inf, so the output follows the timer. -/

namespace Sys2Proof

/-! ### Monotone operations on values from 0 to +inf -/

theorem IsRoundedUnits.mono {x x' : F32} {z z' : Int} {d d' : Nat} (h : IsRoundedUnits x z d)
    (h' : IsRoundedUnits x' z' d') (hz : z * d' ≤ z' * d) : x.le x' = true := by
  refine (F32.le_iff x x').2 ⟨h.noNaN, h'.noNaN, ?_⟩
  rw [h.key, h'.key]
  exact roundKey_mono z z' d d' h.pos h'.pos hz

/-- A value that is no NaN lies between the infinities. -/
theorem F32.infinity_le_le (a : F32) (ha : a.isNaN = false) :
    (F32.infinity true).le a = true ∧ a.le (F32.infinity false) = true := by
  obtain ⟨hneg, hpos⟩ : ((F32.infinity true).isNaN = false ∧ (F32.infinity true).key = -(F32.infMag : Int)) ∧
      (F32.infinity false).isNaN = false ∧ (F32.infinity false).key = F32.infMag := by decide
  have hlow := a.isNaN_eq_false_iff.1 ha
  have hkey : -(F32.infMag : Int) ≤ a.key ∧ a.key ≤ F32.infMag := by
    unfold F32.key
    split <;> omega
  rw [F32.le_iff, F32.le_iff, hneg.1, hneg.2, hpos.1, hpos.2]
  exact ⟨⟨rfl, ha, hkey.1⟩, ha, rfl, hkey.2⟩

theorem F32.le_refl (a : F32) (ha : a.isNaN = false) : a.le a = true := (F32.le_iff a a).2 ⟨ha, ha, le_rfl⟩

theorem F32.le_trans (a b c : F32) (hab : a.le b = true) (hbc : b.le c = true) : a.le c = true := by
  obtain ⟨ha, -, hkab⟩ := (F32.le_iff a b).1 hab
  obtain ⟨-, hc, hkbc⟩ := (F32.le_iff b c).1 hbc
  exact (F32.le_iff a c).2 ⟨ha, hc, hkab.trans hkbc⟩

theorem F32.zero_le_of_le (a b : F32) (ha : (F32.ofInt 0).le a = true) (hab : a.le b = true) :
    (F32.ofInt 0).le b = true := F32.le_trans _ a b ha hab

theorem F32.lt_of_lt_of_le (a b c : F32) (hab : a.lt b = true) (hbc : b.le c = true) : a.lt c = true := by
  obtain ⟨ha, -, hkab⟩ := (F32.lt_iff a b).1 hab
  obtain ⟨-, hc, hkbc⟩ := (F32.le_iff b c).1 hbc
  exact (F32.lt_iff a c).2 ⟨ha, hc, hkab.trans_le hkbc⟩

theorem F32.eqv_zero_of_pos (a : F32) (h : (F32.ofInt 0).lt a = true) : a.eqv (F32.ofInt 0) = false := by
  have hpos := (a.zero_lt_iff.1 h).2
  rw [Bool.eq_false_iff, ne_eq, F32.eqv_iff, F32.key_zero]
  omega

/-- A sum of two values from 0 on is at least each of them. -/
theorem F32.le_add (a b : F32) (ha : (F32.ofInt 0).le a = true) (hb : (F32.ofInt 0).le b = true)
    (hbf : b.isFinite = true) : a.le (a.add b) = true ∧ b.le (a.add b) = true := by
  obtain ⟨hna, hka⟩ := a.zero_le_iff.1 ha
  obtain ⟨hnb, hkb⟩ := b.zero_le_iff.1 hb
  rcases a.isFinite_or_isInf hna with haf | hai
  · have hua := a.units_nonneg_iff.2 hka
    have hub := b.units_nonneg_iff.2 hkb
    have hadd := a.isRoundedUnits_add b haf hbf
    exact ⟨hadd.le_of_units_le a haf (by omega), hadd.le_of_units_le b hbf (by omega)⟩
  · rw [(a.add_inf_finite b hai hbf).1]
    have htop := (b.infinity_le_le hnb).2
    rw [← a.isNegative_of_isInf hai hka, ← a.eq_infinity hai] at htop
    exact ⟨a.le_refl hna, htop⟩

theorem F32.div_le_div (a b c : F32) (ha : (F32.ofInt 0).le a = true) (hab : a.le b = true)
    (hcf : c.isFinite = true) (hc : 0 < c.key) : (a.div c).le (b.div c) = true := by
  obtain ⟨hnb, hkb⟩ := b.zero_le_iff.1 (F32.zero_le_of_le a b ha hab)
  rcases b.isFinite_or_isInf hnb with hbf | hbi
  · have haf : a.isFinite = true := Machine.Within.isFinite ⟨ha, hab⟩ F32.isFinite_zero hbf
    have hunits := F32.units_le_of_le a b hab
    exact (a.isRoundedUnits_div c haf hcf hc).mono (b.isRoundedUnits_div c hbf hcf hc)
      (Int.mul_le_mul_of_nonneg_right (by omega) (Int.natCast_nonneg c.mag))
  · rw [(b.div_inf_finite c hbi hcf).1, b.isNegative_of_isInf hbi hkb, c.isNegative_of_key_pos hc]
    exact (F32.infinity_le_le _ ((F32.zero_le_iff _).1 (F32.zero_le_div a c ha hcf hc)).1).2

/-- A quotient of at least 2^-149 does not round to 0. -/
theorem F32.div_pos (a b : F32) (ha : a.isFinite = true) (hb : b.isFinite = true) (hkb : 0 < b.key)
    (h : (b.mag : Int) ≤ a.units * 2 ^ 149) : (F32.ofInt 0).lt (a.div b) = true := by
  obtain ⟨hfin, hunits, hpos⟩ : (⟨1⟩ : F32).isFinite = true ∧ (⟨1⟩ : F32).units = 1 ∧
      (F32.ofInt 0).lt ⟨1⟩ = true := by decide +kernel
  exact F32.lt_of_lt_of_le _ _ _ hpos
    ((a.isRoundedUnits_div b ha hb hkb).le_of_units_le ⟨1⟩ hfin (by rw [hunits]; omega))

theorem F32.one_sub_le_one_sub (a b : F32) (ha : (F32.ofInt 0).le a = true) (hab : a.le b = true) :
    ((F32.ofInt 1).sub b).le ((F32.ofInt 1).sub a) = true := by
  obtain ⟨hnb, hkb⟩ := b.zero_le_iff.1 (F32.zero_le_of_le a b ha hab)
  rcases b.isFinite_or_isInf hnb with hbf | hbi
  · have haf : a.isFinite = true := Machine.Within.isFinite ⟨ha, hab⟩ F32.isFinite_zero hbf
    have hunits := F32.units_le_of_le a b hab
    exact ((F32.ofInt 1).isRoundedUnits_sub b F32.isFinite_one hbf).mono
      ((F32.ofInt 1).isRoundedUnits_sub a F32.isFinite_one haf) (by omega)
  · rw [(b.sub_inf_finite _ hbi F32.isFinite_one).2, b.isNegative_of_isInf hbi hkb]
    exact (F32.infinity_le_le _ ((F32.le_iff _ _).1 (F32.one_sub_le a ha)).1).1

end Sys2Proof

namespace Sys2Proof.Machine

open Sys2Proof

/-! ### The outputs of the stages (R135), from what ENV_PROCESS does (`EnvStep`) -/

section

variable {e e' : Envelope}

/-- The timer moves on by INV_SR, so it is no less than before and no less than INV_SR. -/
theorem EnvelopeLegal.le_nextTimer (he : EnvelopeLegal e) :
    e.timer.le (e.timer.add ⟨0x37AEC33E⟩) = true ∧ F32.le ⟨0x37AEC33E⟩ (e.timer.add ⟨0x37AEC33E⟩) = true :=
  F32.le_add _ _ he.timer (by decide +kernel) (by decide +kernel)

theorem EnvStep.out_le_of_attack (h : EnvStep e e') (he : EnvelopeLegal e) (hs : e.stage = .attack)
    (hout : e.out = e.timer.div e.attack) : e.out.le e'.out = true := by
  obtain ⟨t, rfl, rfl⟩ := h.attack hs
  obtain ⟨hfin, hpos, -⟩ := time_pos _ he.attack
  split
  · exact he.out.2
  · rw [hout]
    exact F32.div_le_div _ _ _ he.timer he.le_nextTimer.1 hfin hpos

theorem EnvStep.out_le_of_decay (h : EnvStep e e') (he : EnvelopeLegal e) (hs : e.stage = .decay)
    (hout : e.out = (F32.ofInt 1).sub (e.timer.div e.decay)) : e'.out.le e.out = true := by
  obtain ⟨t, x, rfl, rfl, rfl⟩ := h.decay hs
  obtain ⟨hfin, hpos, -⟩ := time_pos _ he.decay
  split
  · rw [← ofInt_zero]
    exact he.out.1
  · rw [hout]
    exact F32.one_sub_le_one_sub _ _ (F32.zero_le_div _ _ he.timer hfin hpos)
      (F32.div_le_div _ _ _ he.timer he.le_nextTimer.1 hfin hpos)

/-- Settles O53: the timer does not fall, and the output follows it, or is at its bound where the stage ends. -/
theorem envelopeIsMonotoneWithinAStage : Obligations.EnvelopeIsMonotoneWithinAStage := fun e he =>
  ⟨(envStep_envProcess e).out_le_of_attack he, (envStep_envProcess e).out_le_of_decay he⟩

/-- The output in ATTACK is at least INV_SR divided by the attack time, and that does not underflow. -/
theorem EnvelopeLegal.attackOut_pos (he : EnvelopeLegal e) :
    (F32.ofInt 0).lt ((e.timer.add ⟨0x37AEC33E⟩).div e.attack) = true := by
  obtain ⟨hfin, hpos, -⟩ := time_pos _ he.attack
  obtain ⟨hstep, hstepFin, hstepUnits⟩ : (F32.ofInt 0).le ⟨0x37AEC33E⟩ = true ∧
      F32.isFinite ⟨0x37AEC33E⟩ = true ∧ 10 ≤ F32.units ⟨0x37AEC33E⟩ := by decide +kernel
  have hten : (F32.ofInt 10).units = 10 * 2 ^ 149 := by decide +kernel
  have hunits := he.attack.units_le.2
  have hsign := e.attack.units_pos_iff.2 hpos
  have hmag := e.attack.natAbs_units
  exact F32.lt_of_lt_of_le _ _ _ (F32.div_pos _ _ hstepFin hfin hpos (by omega))
    (F32.div_le_div _ _ _ hstep he.le_nextTimer.2 hfin hpos)

theorem EnvStep.out_pos_of_attack (h : EnvStep e e') (he : EnvelopeLegal e) (hs' : e'.stage = .attack) :
    (F32.ofInt 0).lt e'.out = true := by
  cases hs : e.stage with
  | idle => simp [h.idle hs, hs] at hs'
  | attack =>
    obtain ⟨t, rfl, rfl⟩ := h.attack hs
    split at hs'
    · cases hs'
    · rename_i hend
      rw [if_neg hend]
      exact he.attackOut_pos
  | decay =>
    obtain ⟨t, x, -, -, rfl⟩ := h.decay hs
    split at hs' <;> simp [hs] at hs'

/-- IDLE is entered from DECAY only. -/
theorem EnvStep.zero_of_idle (h : EnvStep e e') (hs : e.stage ≠ .idle) (hs' : e'.stage = .idle) :
    e'.out = ⟨0⟩ ∧ e'.timer = ⟨0⟩ := by
  cases hstage : e.stage with
  | idle => exact absurd hstage hs
  | attack =>
    obtain ⟨t, -, rfl⟩ := h.attack hstage
    split at hs' <;> simp [hstage] at hs'
  | decay =>
    obtain ⟨t, x, -, -, rfl⟩ := h.decay hstage
    split at hs'
    · rename_i hend
      rw [if_pos hend]
      exact ⟨rfl, rfl⟩
    · exact absurd hs' hs

/-- Settles O54: the output is above 0 in ATTACK and, with the legal values, in DECAY. -/
theorem envelopeOutputIsZeroExactlyInIdle : Obligations.EnvelopeOutputIsZeroExactlyInIdle := by
  intro e he
  have hstep := envStep_envProcess e
  have he' := envelopeLegal_envProcess he
  refine ⟨⟨fun hzero => ?_, fun hs => (he'.idle hs).1⟩, hstep.zero_of_idle⟩
  cases hs : (envProcess e).stage with
  | idle => rfl
  | attack => simp [F32.eqv_zero_of_pos _ (hstep.out_pos_of_attack he hs)] at hzero
  | decay => simp [F32.eqv_zero_of_pos _ (he'.decaying hs)] at hzero

end

/-! ### The commands -/

theorem exec_envSetAttack_of_number (s : State) (u : EnvSel) {t : F32} (h : t.isNaN = false) :
    exec (.envSetAttack u t) s =
      .next (State.answeredWith (s.setEnv u { s.env u with attack := clampTime t }) 0) := if_neg (by simp [h])

theorem exec_envSetDecay_of_number (s : State) (u : EnvSel) {t : F32} (h : t.isNaN = false) :
    exec (.envSetDecay u t) s =
      .next (State.answeredWith (s.setEnv u { s.env u with decay := clampTime t }) 0) := if_neg (by simp [h])

/-- Settles O50: both setters clamp their operand into one register of the envelope they select. -/
theorem envelopeTimesAreClamped : Obligations.EnvelopeTimesAreClamped := fun s _ hv =>
  ⟨exec_envSetAttack_of_number s .env0 hv, exec_envSetAttack_of_number s .env1 hv,
    exec_envSetDecay_of_number s .env0 hv, exec_envSetDecay_of_number s .env1 hv⟩

theorem exec_envTrigger (u : EnvSel) (s : State) : exec (.envTrigger u) s =
    .next (State.answeredWith (s.setEnv u (envTriggerInt (s.env u))) 0) := rfl

theorem envTriggerInt_of_silent (e : Envelope) (h : e.out.eqv (F32.ofInt 0) = true) :
    envTriggerInt e = { e with stage := .attack, timer := ⟨0⟩ } := by
  rw [envTriggerInt, if_pos h, ofInt_zero]

theorem envTriggerInt_of_sounding (e : Envelope) (h : e.out.eqv (F32.ofInt 0) = false) :
    envTriggerInt e = { e with stage := .attack, timer := e.out.mul e.attack } := by
  rw [envTriggerInt, if_neg (by simp [h])]

/-- Settles O51: the seed of the timer is chosen by the output (R125). -/
theorem triggerSeedsTheTimer : Obligations.TriggerSeedsTheTimer := by
  intro s u
  rw [exec_envTrigger]
  refine ⟨fun h => by rw [envTriggerInt_of_silent _ h], fun h => by rw [envTriggerInt_of_sounding _ h],
    fun hout hattack => ?_⟩
  have hsounding : F32.eqv ⟨0x3F000000⟩ (F32.ofInt 0) = false := by decide +kernel
  have hproduct : (s.env u).out.mul (s.env u).attack = ⟨0x3F000000⟩ := by
    rw [hout, hattack]
    decide +kernel
  rw [envTriggerInt_of_sounding _ (by rw [hout, hsounding]), hproduct]

theorem exec_envGetStage (s : State) (u : EnvSel) : exec (.envGetStage u) s =
    .next (s.answeredWith (zext32 (stageNumber (s.env u).stage))) := rfl

/-- Settles O52: each query's answer is its register, and the two envelopes are equal at reset. -/
theorem envelopeQueriesReadTheirRegisters : Obligations.EnvelopeQueriesReadTheirRegisters := by
  intro s u
  refine ⟨rfl, ?_, rfl, ?_, rfl, ?_, ?_, rfl⟩
  · cases u <;> rfl
  · cases u <;> rfl
  · cases u <;> rfl
  · rw [exec_envGetStage]
    cases (s.env u).stage <;> rfl

end Sys2Proof.Machine
end

section
/-! PROOFS. The engine (R136 to R145): the transport, the synthesis of a sample step from the voice its trigger has
restarted or not (`voiceStage`), and the first sample after TRANSPORT_START, which ticks onto step 0. -/

namespace Sys2Proof.Machine

open Sys2Proof

variable {cfg : Config}

/-! ### The synthesis of a sample step -/

/-- The state of a playing sample step after its trigger test, which the synthesis starts from (R136). -/
abbrev voiceStage (s : State cfg) : State cfg :=
  if sampleTriggers s then triggerVoice (trackStage s) else trackStage s

/-- A trigger leaves the filter and the channels to the synthesis as they were. -/
theorem voiceStage_kept (s : State cfg) :
    (voiceStage s).filt = s.filt ∧ (voiceStage s).audioOut = s.audioOut ∧
      (voiceStage s).responses = s.responses ∧ (voiceStage s).inputs = s.inputs := by
  unfold voiceStage
  split <;> simp

section
variable (s : State) (hplay : s.eng.play = true)
include hplay

/-- Every playing sample step synthesizes from its voice (R136). -/
theorem synthesized_sampleStep :
    Synthesized (voiceStage s).osc (voiceStage s).env0 (voiceStage s).env1 s (sampleStep s) := by
  obtain ⟨hfilt, haudio, hresponses, hinputs⟩ := voiceStage_kept s
  rw [sampleStep_of_play s hplay, playingSample_eq]
  exact synthesized_synthesize s (voiceStage s) _ _ hfilt haudio hresponses hinputs

theorem synthesized_of_not_lastTrig (hquiet : (sampleStep s).eng.lastTrig = false) :
    Synthesized s.osc s.env0 s.env1 s (sampleStep s) := by
  rw [sampleStep_lastTrig s hplay] at hquiet
  simpa [voiceStage, hquiet] using synthesized_sampleStep s hplay

theorem synthesized_of_lastTrig (htrig : (sampleStep s).eng.lastTrig = true) :
    Synthesized (oscSetFreqInt (pitchFreq (sampleStep s).pitch) s.osc) (envTriggerInt s.env0)
      (envTriggerInt s.env1) s (sampleStep s) := by
  have hpitch : (sampleStep s).pitch = (trackStage s).pitch := by
    rw [sampleStep_pitch s hplay, trackStage_pitch]
  rw [sampleStep_lastTrig s hplay] at htrig
  simpa [voiceStage, htrig, hpitch] using synthesized_sampleStep s hplay

end

/-- Settles O58: without a trigger the voice is the one the step found. -/
theorem playingSampleSynthesizes : Obligations.PlayingSampleSynthesizes := synthesized_of_not_lastTrig

/-- Settles O59: the voice of a trigger is ENV_TRIGGER_INT's and OSC_SET_FREQ_INT's. -/
theorem triggeringSampleRestartsTheVoice : Obligations.TriggeringSampleRestartsTheVoice := fun s hplay htrig =>
  ⟨_, _, _, tunedTo_oscSetFreqInt _ s.osc, envTriggered_envTriggerInt s.env0, envTriggered_envTriggerInt s.env1,
    synthesized_of_lastTrig s hplay htrig⟩

/-- Settles O57: the stopped step writes the output pair and the flags, and its zeros are +0. -/
theorem stoppedSampleIsSilentAndFreezes : Obligations.StoppedSampleIsSilentAndFreezes := by
  intro s hstop
  rw [sampleStep_of_stop s hstop, stoppedSample, State.deliver, ofInt_zero]

/-! ### The transport -/

theorem exec_transportStart (s : State) :
    exec .transportStart s = .next ((startTransport s).answeredWith 0) := rfl

theorem exec_transportStop (s : State) : exec .transportStop s =
    .next (State.answeredWith { s with eng := { s.eng with play := false } } 0) := rfl

theorem toNat_lastStep_of_legal {len : BitVec 17} {cur : BitVec 16} (h : TrackLegal Config.reference len cur) :
    (lastStep len).toNat = len.toNat - 1 := by
  obtain ⟨hpos, hmax, -⟩ := h
  exact toNat_playhead (by omega) hmax

/-- Settles O56: the last step of a legal length fits the playhead, and a legal increment leaves a phase below the
end. -/
theorem transportCommandsStartAndStop : Obligations.TransportCommandsStartAndStop := by
  intro s
  refine ⟨fun hs => ?_, exec_transportStop s⟩
  obtain ⟨hpos, hmax⟩ := hs.inc
  have hphase := toNat_phase_clkPhaseToEnd s.clk hpos hmax
  have hbelow : 2 ^ 48 - s.clk.inc.toNat < 2 ^ 48 := by omega
  exact ⟨_, _, _, _, toNat_lastStep_of_legal hs.trig0, toNat_lastStep_of_legal hs.trig1,
    toNat_lastStep_of_legal hs.pitch, hphase.trans (Nat.mod_eq_of_lt hbelow).symm, exec_transportStart s⟩

/-! ### The first sample after TRANSPORT_START -/

/-- SEQ_ADVANCE wraps from the last step to step 0 (R66). -/
theorem nextStep_lastStep_of_legal {len : BitVec 17} {cur : BitVec 16} (h : TrackLegal Config.reference len cur) :
    nextStep (lastStep len) len = 0 := by
  refine BitVec.eq_of_toNat_eq ?_
  rw [toNat_nextStep_of_legal (trackLegal_lastStep h), toNat_lastStep_of_legal h, Nat.sub_add_cancel h.1,
    Nat.mod_self]
  rfl

/-- An envelope in ATTACK stays there or goes on to DECAY (R126). -/
theorem EnvStep.stage_ne_idle_of_attack {e e' : Envelope} (h : EnvStep e e') (hs : e.stage = .attack) :
    e'.stage ≠ .idle := by
  obtain ⟨t, -, rfl⟩ := h.attack hs
  split <;> simp [hs]

/-- A sample step that triggers takes both envelopes out of IDLE (R125, R126). -/
theorem env_stages_ne_idle_of_lastTrig (s : State) (hplay : s.eng.play = true)
    (htrig : (sampleStep s).eng.lastTrig = true) :
    (sampleStep s).env0.stage ≠ .idle ∧ (sampleStep s).env1.stage ≠ .idle :=
  have h := synthesized_of_lastTrig s hplay htrig
  ⟨h.env0.2.stage_ne_idle_of_attack (envTriggerInt_stage _),
    h.env1.2.stage_ne_idle_of_attack (envTriggerInt_stage _)⟩

section
variable (s : State) (hplay : s.eng.play = true) (htick : (sampleStep s).eng.lastTick = true)
include hplay htick

/-- A tick that advances all playheads to step 0 leaves them there, whether the cross-track reset runs or not. -/
theorem playheads_zero_of_tick (htrig0 : nextStep s.trig0.cur s.trig0.len = 0)
    (htrig1 : nextStep s.trig1.cur s.trig1.len = 0) (hpitch : nextStep s.pitch.cur s.pitch.len = 0) :
    (sampleStep s).trig0.cur = 0 ∧ (sampleStep s).trig1.cur = 0 ∧ (sampleStep s).pitch.cur = 0 := by
  rw [sampleStep_trig0_cur s hplay, sampleStep_trig1_cur s hplay, sampleStep_pitch_cur s hplay, htick, if_pos rfl,
    if_pos rfl, if_pos rfl, htrig0, htrig1, hpitch, ite_self]
  exact ⟨rfl, rfl, rfl⟩

/-- A tick that takes TRIG0 to step 0 triggers where that step is active. -/
theorem lastTrig_of_tick_to_zero (hcur : (sampleStep s).trig0.cur = 0) (hactive : s.trig0.stepActive 0 = true) :
    (sampleStep s).eng.lastTrig = true := by
  have hpattern : (sampleStep s).trig0.active = s.trig0.active := (sampleStep_effect s).trig0.active
  rw [lastTrig_eq_currentActive s hplay, htick, Bool.true_and, TrigTrack.currentActive, hcur,
    TrigTrack.stepActive, hpattern]
  exact hactive

end

/-- Settles O60: the clock stands one increment before the end and every playhead on its last step, so the step
ticks onto step 0 of every track. -/
theorem firstSampleAfterStartTriggers : Obligations.FirstSampleAfterStartTriggers := by
  intro s t hs hactive hstart
  obtain ⟨hplay, hclk⟩ := play_and_clk_of_phaseToEnd_or_start (.inr hstart)
  cases (exec_transportStart s).symm.trans hstart
  have htick := (sampleStep_lastTick _ hplay).trans
    (hclk ▸ (clkProcess_clkPhaseToEnd s.clk hs.inc.1 hs.inc.2).1)
  obtain ⟨htrig0, htrig1, hpitch⟩ := playheads_zero_of_tick _ hplay htick (nextStep_lastStep_of_legal hs.trig0)
    (nextStep_lastStep_of_legal hs.trig1) (nextStep_lastStep_of_legal hs.pitch)
  have htrig := lastTrig_of_tick_to_zero _ hplay htick htrig0 hactive
  obtain ⟨henv0, henv1⟩ := env_stages_ne_idle_of_lastTrig _ hplay htrig
  exact ⟨htick, htrig, htrig0, htrig1, hpitch, henv0, henv1⟩

/-! ### The queries -/

/-- The status word bit by bit (R24). -/
theorem getLsbD_statusWord (g : Engine) :
    (statusWord g).getLsbD 0 = g.play ∧ (statusWord g).getLsbD 1 = g.err ∧
      (statusWord g).getLsbD 2 = g.lastTick ∧ (statusWord g).getLsbD 3 = g.lastTrig ∧
      ∀ i, 4 ≤ i → (statusWord g).getLsbD i = false := by
  simp only [statusWord, BitVec.getLsbD_append]
  refine ⟨by simp, by simp, by simp, by simp, fun i hi => ?_⟩
  rw [if_neg (by omega), if_neg (by omega), if_neg (by omega), if_neg (by omega)]
  simp

/-- Settles O55: each query's answer is its register, or the status word. -/
theorem engineQueriesReadTheStatus : Obligations.EngineQueriesReadTheStatus := by
  intro s
  obtain ⟨hplay, herr, htick, htrig, hrest⟩ := getLsbD_statusWord s.eng
  exact ⟨rfl, rfl, ⟨_, hplay, herr, htick, htrig, hrest, rfl⟩, ⟨_, toNat_zext32 s.eng.errCode (by norm_num), rfl⟩,
    rfl, rfl⟩

end Sys2Proof.Machine
end

section
/-! PROOFS. Exceptions (R44, R146 to R153) and reset (R160): a command is applied or rejected, and answered once in
either case; every event leaves a next state; and after a reset the registers hold their written-out values, which
are what a reset event gives and so are legal (R162). -/

namespace Sys2Proof.Machine

open Sys2Proof

variable {cfg : Config}

/-! ### A command is applied or rejected -/

/-- From `s` a command that is applied and responds `v` leaves `t` (R44, R147): one more response, with status 0, and
the error latch as it was. -/
structure CommandApplied (v : Word) (s t : State cfg) : Prop where
  inputs : t.inputs = s.inputs
  audioOut : t.audioOut = s.audioOut
  responses : t.responses = s.responses ++ [{ status := 0, data := v }]
  err : t.eng.err = s.eng.err
  errCode : t.eng.errCode = s.eng.errCode

theorem commandApplied_answer (s : State cfg) (v : Word) : CommandApplied v s (s.answer v) :=
  ⟨rfl, rfl, rfl, rfl, rfl⟩

/-- A command's effect is a rejection, or its one response has status 0 and the latch is not written (R147). -/
theorem CommandEffect.applied_or_rejected {s t : State cfg} (h : CommandEffect s t) :
    (∃ v, CommandApplied v s t) ∨ ∃ e, t = s.reject e := by
  have done := commandApplied_answer s
  cases h with
  | rejected e => exact .inr ⟨e, rfl⟩
  | answered v => exact .inl ⟨v, done v⟩
  | clock | pitch | quant | osc | filt | start | stop => exact .inl ⟨0, { done 0 with }⟩
  | trig u => cases u <;> exact .inl ⟨0, { done 0 with }⟩
  | env u => cases u <;> exact .inl ⟨0, { done 0 with }⟩

/-- The numbers of the errors are 1 to 8, so a rejection's status is never that of an applied command (R146). -/
theorem errNumber_range (e : ErrCode) : errNumber e ≠ 0 ∧ (errNumber e).toNat ≤ 8 := by
  cases e <;> decide

theorem commandEffect_of_step {s t : State} {c : Command} {rest : List Event} (hi : s.inputs = .command c :: rest)
    (h : step s = .next t) : CommandEffect (s.setInputs rest) t := by
  rw [← stepIn_reference, stepIn_of_cons s _ rest hi] at h
  exact (applyCommand_effects c _).of_next h

/-- Settles O8, by the two outcomes of a command. -/
theorem eachCommandIsAnsweredOnceAndRejectionIsPrecise :
    Obligations.EachCommandIsAnsweredOnceAndRejectionIsPrecise := by
  intro s t c rest hi h
  obtain ⟨v, ht⟩ | ⟨e, rfl⟩ := (commandEffect_of_step hi h).applied_or_rejected
  · exact ⟨⟨0, v⟩, ht.inputs, ht.audioOut, ht.responses, fun hstatus => absurd rfl hstatus,
      fun _ => ⟨ht.err, ht.errCode⟩⟩
  · obtain ⟨hne, hle⟩ := errNumber_range e
    exact ⟨⟨errNumber e, 0⟩, rfl, rfl, rfl, fun _ => ⟨rfl, hle, rfl⟩, fun hstatus => absurd hstatus hne⟩

/-! ### No step stops -/

theorem applyEvent_answers (e : Event) (s : State cfg) : ∃ t, applyEvent execIn e s = .next t := by
  cases e with
  | command c =>
    obtain ⟨t, ht, -⟩ := applyCommand_effects c s
    exact ⟨t, ht⟩
  | sample => exact ⟨_, rfl⟩
  | reset => exact ⟨_, rfl⟩

theorem safeStepIn (s : State cfg) : SafeStepIn s := by
  unfold SafeStepIn
  cases hi : s.inputs with
  | nil => exact ⟨s, stepIn_of_nil s hi⟩
  | cons e rest =>
    rw [stepIn_of_cons s e rest hi]
    exact applyEvent_answers e _

/-- Settles O11: the step of every configuration, read in the reference one. -/
theorem everyStepAnswersANextState : Obligations.EveryStepAnswersANextState := by
  refine ⟨fun s => ?_, fun _ => safeStepIn⟩
  unfold SafeStep
  rw [← stepIn_reference]
  exact safeStepIn s

/-! ### NaN operands -/

/-- The check that the float setters make of their operand (R148). -/
theorem reject_of_isNaN (s : State cfg) {v : F32} (hv : v.isNaN = true) (r : Result cfg) :
    (if v.isNaN then .next (s.reject .nan) else r) = .next (s.rejectedWith 8) := if_pos hv

/-- Settles O44: each of the eight setters begins with the check. -/
theorem naNOperandsAreRejected : Obligations.NaNOperandsAreRejected := by
  intro s v hv
  have check := reject_of_isNaN s hv
  exact ⟨check _, check _, check _, check _, check _, check _, fun _ => ⟨check _, check _⟩⟩

/-! ### The registers after reset -/

/-- A reset sequencer is one that SEQ_INIT has cleared to its 8 steps (R14, R15, R68). -/
theorem trigReset_eq_initTrig : (TrigTrack.reset : TrigTrack cfg) = initTrig 8 .reset := rfl

@[inherit_doc trigReset_eq_initTrig]
theorem pitchResetIn_eq_initPitch (cfg : Config) :
    PitchTrack.resetIn cfg = initPitch (Quantizer.resetIn cfg) 8 (.resetIn cfg) := rfl

theorem stepActive_trigReset (i : Nat) : (TrigTrack.reset : TrigTrack cfg).stepActive i = false := by
  rw [trigReset_eq_initTrig, initTrig_stepActive]

/-- The default note is in the chromatic scale of reset, so it is stored as it is (R15, R16). -/
theorem noteAt_pitchReset {i : Nat} (hi : i < 64) : State.reset.pitch.noteAt i = 60 := by
  have hpitch : State.reset.pitch = PitchTrack.resetIn Config.reference := by rw [← resetIn_reference]; rfl
  rw [hpitch, pitchResetIn_eq_initPitch, noteAt_initPitch _ _ _ i hi]
  exact quantize_of_inScale (inScale_chromatic rfl 60)

/-- Settles O12: a reset event gives the registers of `State.reset`. -/
theorem resetGivesEveryRegisterItsValue : Obligations.ResetGivesEveryRegisterItsValue := by
  intro s rest hi
  obtain ⟨hreference, -, -⟩ := stepAppliesSampleRequestsAndResets
  obtain ⟨-, hreset⟩ := hreference s rest
  exact ⟨_, hreset hi, rfl, rfl, rfl, rfl, rfl, rfl, rfl, rfl,
    fun i h64 => ⟨stepActive_trigReset i, stepActive_trigReset i, noteAt_pitchReset h64⟩, rfl, rfl, rfl, rfl, rfl, rfl⟩

/-! ### The invariants at reset -/

/-- The reset state is one that a reset event leaves. -/
theorem resetEvent_resetIn (cfg : Config) : (State.resetIn cfg).resetEvent = State.resetIn cfg := rfl

theorem controlLegal_resetIn (hc : cfg.Legal) (h8 : 8 ≤ cfg.N_MAX) : ControlLegal (State.resetIn cfg) := by
  rw [← resetEvent_resetIn]
  exact controlLegal_resetEvent hc h8 _

/-- Settles O13: the reference configuration is one of the legal ones. -/
theorem controlRegistersLegalAtReset : Obligations.ControlRegistersLegalAtReset := by
  refine ⟨?_, fun _ => controlLegal_resetIn⟩
  rw [← resetIn_reference]
  exact controlLegal_resetIn reference_legal (by decide)

theorem derivedLegal_resetIn (cfg : Config) : DerivedLegal (State.resetIn cfg) := by
  rw [← resetEvent_resetIn]
  exact derivedLegal_resetEvent _

/-- OSC_RESYNC reads nothing that it writes (R96). -/
theorem oscResync_oscResync (o : Oscillator cfg) : oscResync (oscResync o) = oscResync o := rfl

/-- The oscillator of reset is one that OSC_RESYNC leaves (R160). -/
theorem oscResync_resetIn (cfg : Config) : oscResync (State.resetIn cfg).osc = (State.resetIn cfg).osc :=
  oscResync_oscResync _

/-- Settles O15: the reference reset state is the general one, where each derived register is computed. -/
theorem derivedRegistersFollowTheirRulesAtReset : Obligations.DerivedRegistersFollowTheirRulesAtReset := by
  refine ⟨?_, fun cfg => ⟨derivedLegal_resetIn cfg, oscResync_resetIn cfg⟩⟩
  rw [← resetIn_reference]
  exact ⟨derivedLegal_resetIn _, oscResync_resetIn _⟩

/-- Settles O17: the reference reset state is the general one, whose registers `signalLegal_resetIn` checks. -/
theorem signalRegistersInRangeAtReset : Obligations.SignalRegistersInRangeAtReset := by
  unfold Obligations.SignalRegistersInRangeAtReset
  rw [← resetIn_reference]
  exact signalLegal_resetIn

end Sys2Proof.Machine
end
